-- ==== Sys2Proof/Word.lean ====
section
/-! DEFINITION. The word types of sponge_permutation_core (00_scope.md R6, R8, R11). -/

namespace Sys2Proof

/-- A word of 64 bits (R6, R8); `+` on it is the spec's `+64` and `^^^` its XOR (R9). -/
abbrev Word := BitVec 64

/-- A byte of the IN, OUT and MAT stores (R12). -/
abbrev Byte := BitVec 8

/-- A block: 12 words, 96 bytes, one matrix cell, the size of the rate (R6, R11). -/
abbrev Block := Vector Word 12

/-- The sponge state's 16 words: rate 0..11, capacity 12..15 (R6, R21). -/
abbrev Sponge := Vector Word 16

end Sys2Proof
end

