-- ==== Sys2Proof/Syntax.lean ====
section
/-! DEFINITION. The 19 commands of SPC-CMD (30_encoding.md R88), one constructor per row of opcode_table.json, and the
reasons a word is no command (R89). -/

namespace Sys2Proof

/-- A command (R88). Only SQUEEZE has an operand, its byte count n (R87). -/
inductive Instr where
  | nop
  | clrerr
  | srst
  | init
  | perm
  | permR
  | absorb
  | duplex
  | duplexR
  | squeeze (n : Nat)
  | mStart
  | mAbsorb
  | mRow0
  | mRow1
  | mSetupRow
  | mWanderRow
  | mWrapup
  | derive
  | deriveFixed
deriving DecidableEq, Repr

/-- Why a command word is ILLEGAL (R89, R90), in the order the decoder tests. -/
inductive IllegalWord where
  /-- RSV1 (bits 63:32) is not 0. -/
  | rsv1
  /-- RSV0 (bits 15:8) is not 0. -/
  | rsv0
  /-- OPC (bits 7:0) is no opcode of R88. -/
  | reservedOpcode
  /-- IMM16 (bits 31:16) is not 0 on a command other than SQUEEZE. -/
  | imm16
deriving DecidableEq, Repr

end Sys2Proof
end

