-- ==== Sys2Proof/WellFormed.lean ====
section
/-! DEFINITION. Which terms of `Instr` are commands an encoding exists for. -/

namespace Sys2Proof

/-- R87, R93: SQUEEZE's byte count fits IMM16, 0 .. 65535; no other command has an operand. -/
def Instr.wellFormed : Instr → Bool
  | .squeeze n => n ≤ 65535
  | .nop | .clrerr | .srst | .init | .perm | .permR | .absorb | .duplex | .duplexR
  | .mStart | .mAbsorb | .mRow0 | .mRow1 | .mSetupRow | .mWanderRow | .mWrapup | .derive | .deriveFixed => true

end Sys2Proof
end

