-- ==== Sys2Proof/Decode.lean ====
section
/-! DEFINITION. Command decoding (30_encoding.md R86, R88, R89), total on 64-bit words and rejecting by name, and after
it the encoder (R95). -/

namespace Sys2Proof

/-- R86: bits 7:0. -/
def fieldOPC (v : Word) : Nat := (v.extractLsb' 0 8).toNat

/-- R86: bits 15:8, reserved, must be 0. -/
def fieldRSV0 (v : Word) : Nat := (v.extractLsb' 8 8).toNat

/-- R86, R87: bits 31:16, an unsigned 16-bit immediate, zero-extended. -/
def fieldIMM16 (v : Word) : Nat := (v.extractLsb' 16 16).toNat

/-- R86: bits 63:32, reserved, must be 0. -/
def fieldRSV1 (v : Word) : Nat := (v.extractLsb' 32 32).toNat

/-- R88: the command an opcode names, given the immediate; `none` for a reserved opcode. -/
def lookupOpcode (opc n : Nat) : Option Instr :=
  match opc with
  | 0x00 => some .nop
  | 0x01 => some .clrerr
  | 0x02 => some .srst
  | 0x10 => some .init
  | 0x11 => some .perm
  | 0x12 => some .permR
  | 0x13 => some .absorb
  | 0x14 => some .duplex
  | 0x15 => some .duplexR
  | 0x16 => some (.squeeze n)
  | 0x20 => some .mStart
  | 0x21 => some .mAbsorb
  | 0x22 => some .mRow0
  | 0x23 => some .mRow1
  | 0x24 => some .mSetupRow
  | 0x25 => some .mWanderRow
  | 0x26 => some .mWrapup
  | 0x30 => some .derive
  | 0x31 => some .deriveFixed
  | _ => none

/-- R87: only SQUEEZE takes an immediate. -/
def Instr.takesImmediate : Instr → Bool
  | .squeeze _ => true
  | .nop | .clrerr | .srst | .init | .perm | .permR | .absorb | .duplex | .duplexR
  | .mStart | .mAbsorb | .mRow0 | .mRow1 | .mSetupRow | .mWanderRow | .mWrapup | .derive | .deriveFixed => false

/-- R89: decoding of a command word, its tests in the rule's order. -/
def decode (v : Word) : Except IllegalWord Instr :=
  if fieldRSV1 v ≠ 0 then .error .rsv1
  else if fieldRSV0 v ≠ 0 then .error .rsv0
  else
    match lookupOpcode (fieldOPC v) (fieldIMM16 v) with
    | none => .error .reservedOpcode
    | some i => if i.takesImmediate = false ∧ fieldIMM16 v ≠ 0 then .error .imm16 else .ok i

/-- The command `decode` reads, if any. -/
def decodeOption (v : Word) : Option Instr :=
  match decode v with
  | .ok i => some i
  | .error _ => none

/-- What the decoder reads from a command of the opcode table whose low `nbits` bits are those of `w` and whose bits
above are 0: a command is one 64-bit word (R85, R91), so `w` is the value written to CMD. -/
def decodeTableWord (nbits w : Nat) : Option Instr := decodeOption (BitVec.ofNat 64 (w % 2 ^ nbits))

/-- R88: the opcode of a command. -/
def Instr.opcode : Instr → Nat
  | .nop => 0x00
  | .clrerr => 0x01
  | .srst => 0x02
  | .init => 0x10
  | .perm => 0x11
  | .permR => 0x12
  | .absorb => 0x13
  | .duplex => 0x14
  | .duplexR => 0x15
  | .squeeze _ => 0x16
  | .mStart => 0x20
  | .mAbsorb => 0x21
  | .mRow0 => 0x22
  | .mRow1 => 0x23
  | .mSetupRow => 0x24
  | .mWanderRow => 0x25
  | .mWrapup => 0x26
  | .derive => 0x30
  | .deriveFixed => 0x31

/-- R87, R95: the immediate of a command, 0 except for SQUEEZE. -/
def Instr.immediate : Instr → Nat
  | .squeeze n => n
  | .nop | .clrerr | .srst | .init | .perm | .permR | .absorb | .duplex | .duplexR
  | .mStart | .mAbsorb | .mRow0 | .mRow1 | .mSetupRow | .mWanderRow | .mWrapup | .derive | .deriveFixed => 0

/-- R95: enc(X, n) = OPC(X) + 2^16 n. -/
def encode (i : Instr) : Word := BitVec.ofNat 64 (i.opcode + 2 ^ 16 * i.immediate)

end Sys2Proof
end

