-- ==== Sys2Proof/Config.lean ====
section
/-! DEFINITION. What an implementation fixes (00_scope.md R7) and the free values the spec leaves open
(93_implementation_defined.md Part 1). -/

namespace Sys2Proof

/-- R7 PROFILE: `doc` follows the source text, `ref` the published reference code (R116, R143, R151). -/
inductive Profile where
  | doc
  | ref
deriving DecidableEq, Repr

/-- R7 ROT: the four rotation amounts of the round function (R101). -/
structure Rot where
  r0 : Nat
  r1 : Nat
  r2 : Nat
  r3 : Nat
deriving DecidableEq, Repr

/-- R7: the configuration parameters. The spec makes them arguments of the model; six of them are the machine's own
constant registers CAP_* (R20, R31), so a machine carries its configuration in its state and no step changes it
(log entry 7). -/
structure Config where
  profile : Profile
  matWords : Nat
  inBytes : Nat
  outBytes : Nat
  fixedC : Nat
  fixedT : Word
  rot : Rot
  iv : Vector Word 8
deriving DecidableEq, Repr

/-- R7: an amount `rotr` is defined for (R9). -/
abbrev legalRotation (n : Nat) : Prop := 1 ≤ n ∧ n ≤ 63

/-- R7: the legal values of the parameters. -/
abbrev Config.Legal (c : Config) : Prop :=
  (48 * c.fixedC ≤ c.matWords ∧ c.matWords ≤ 2 ^ 36) ∧
  (c.inBytes % 8 = 0 ∧ 64 ≤ c.inBytes ∧ c.inBytes ≤ 2 ^ 24) ∧
  (c.outBytes % 8 = 0 ∧ 32 ≤ c.outBytes ∧ c.outBytes ≤ 2 ^ 24) ∧
  (2 ≤ c.fixedC ∧ c.fixedC ≤ 65535) ∧
  (legalRotation c.rot.r0 ∧ legalRotation c.rot.r1 ∧ legalRotation c.rot.r2 ∧ legalRotation c.rot.r3)

/-- R116: the BLAKE2b IV words, the default of R7's IV. -/
def blake2bIV : Vector Word 8 :=
  #v[0x6a09e667f3bcc908#64, 0xbb67ae8584caa73b#64, 0x3c6ef372fe94f82b#64, 0xa54ff53a5f1d36f1#64,
     0x510e527fade682d1#64, 0x9b05688c2b3e6c1f#64, 0x1f83d9abfb41bd6b#64, 0x5be0cd19137e2179#64]

/-- The configuration at `State.reset`: R7's defaults and, for the three OPEN capacities, configuration CFG-T of
95_test_vectors.md. DESIGN CHOICE (log entry 7): statements quantify over every legal configuration. -/
def Config.default : Config where
  profile := .doc
  matWords := 1024
  inBytes := 128
  outBytes := 256
  fixedC := 4
  fixedT := 1
  rot := ⟨32, 24, 16, 63⟩
  iv := blake2bIV

/-- Free value (U3): the byte that draw number `d` reads at window offset `a` when nothing has written there
(log entry 5). -/
opaque Config.freeByte : Nat → Nat → Byte

/-- Free value (U1, U2, U5): the word that draw number `d` gives (log entries 8, 9). -/
opaque Config.freeWord : Nat → Word

/-- Free value (U8): how many host accesses pass before the command issued at draw number `d` completes
(log entry 2). -/
opaque Config.latency : Nat → Nat

end Sys2Proof
end

