-- ==== Sys2Proof/Machine/State.lean ====
section
/-! DEFINITION. The machine's state as plain data: every piece of state of 10_state.md R20 to R38, the host's side of
the register window, and the reasons a step can stop. -/

namespace Sys2Proof.Machine

/-- STATUS.PHASE (R27). Codes 8..15 are never produced, so they have no constructor. -/
inductive Phase where
  | idle
  | absorbing
  | rowInit0
  | rowInit1
  | setup
  | wandering
  | wrapUp
  | done
deriving DecidableEq, Repr

/-- STATUS.ERR (R29). Codes 5..15 are never produced, so they have no constructor. -/
inductive ErrCode where
  | none
  | illegal
  | phase
  | param
  | alloc
deriving DecidableEq, Repr

/-- The six parameter registers (R25). -/
structure Params where
  klen : Word
  pwdlen : Word
  saltlen : Word
  tcost : Word
  nrows : Word
  ncols : Word
deriving DecidableEq, Repr

/-- The seven cursor registers (R26); STEP and GAP hold two's-complement values (R8). -/
structure Cursor where
  row : Word
  prev : Word
  rowa : Word
  step : Word
  window : Word
  gap : Word
  tau : Word
deriving DecidableEq, Repr

/-- The names of the parameter registers, in the order of the register map (R63). -/
inductive ParamReg where
  | klen
  | pwdlen
  | saltlen
  | tcost
  | nrows
  | ncols
deriving DecidableEq, Repr

/-- The names of the cursor registers, in the order of the register map (R63). -/
inductive CursorReg where
  | row
  | prev
  | rowa
  | step
  | window
  | gap
  | tau
deriving DecidableEq, Repr

/-- What a window offset names (R63 to R66, R68). -/
inductive Target where
  | id
  | capMatWords
  | capInBytes
  | capOutBytes
  | capFixedC
  | capFixedT
  | capProfile
  | cmd
  | status
  | param (r : ParamReg)
  | cursor (r : CursorReg)
  | sponge (i : Fin 16)
  | blkIn (k : Fin 12)
  | blkOut (k : Fin 12)
  | inBuf
  | outBuf
  | mat
  | unmapped
deriving DecidableEq, Repr

/-- What the world outside the block does to it: the host's accesses (R61; `width` in bytes), its wait for completion
(R94) and the platform's reset input (R235). -/
inductive HostEvent where
  | read (offset width : Nat)
  | write (offset width : Nat) (value : Word)
  /-- R94 `wait`: read STATUS until BUSY = 0. -/
  | wait
  /-- R235: the reset input is asserted and released. -/
  | reset
deriving DecidableEq, Repr

/-- The bytes of IN, OUT and MAT that something has written, by window offset (R64 to R66), strictly rising. -/
abbrev Memory := List Host.Cell

/-- The state of one block (R20) and of the host that drives it. -/
structure State where
  /-- R7, R31: the configuration the CAP_* registers report, with ROT and IV. -/
  cfg : Config
  /-- R21: S[0..15]. -/
  sponge : Sponge
  /-- R23: BLK_IN[0..11]. -/
  blkIn : Block
  /-- R24: BLK_OUT[0..11]. -/
  blkOut : Block
  /-- R25: KLEN, PWDLEN, SALTLEN, TCOST, NROWS, NCOLS. -/
  params : Params
  /-- R26: ROW, PREV, ROWA, STEP, WINDOW, GAP, TAU. -/
  cursor : Cursor
  /-- R28: STATUS.BUSY. -/
  busy : Bool
  /-- R28: STATUS.WIGN. -/
  wign : Bool
  /-- R28, R29: STATUS.ERR. -/
  err : ErrCode
  /-- R27, R28: STATUS.PHASE. -/
  phase : Phase
  /-- R36: LCMD, the command word latched by the last CMD write. -/
  lcmd : Word
  /-- R33 to R35: IN, OUT and MAT. -/
  mem : Memory
  /-- The model's own (log entry 2): host accesses still to pass before the command in progress completes. -/
  engineDelay : Nat
  /-- The model's own (log entry 8): the number of the next free value. -/
  draws : Nat
  /-- The model's own (log entry 1): the host's accesses still to be made, oldest first. -/
  host : List HostEvent
  /-- The model's own (log entry 1): the values the host's reads returned, newest first. -/
  reads : List Word
deriving DecidableEq, Repr

/-- Reasons the machine has no step. -/
inductive Fault where
  /-- R61, U4: the host is stuck at an access that is not admitted (not 8 bytes wide, not at a multiple of 8, or at
  2^40 or above). Raised by the host's side of a step. Safe: the spec gives the block no behaviour there. -/
  | hostStuck (offset width : Nat)
deriving DecidableEq, Repr

/-- Reasons an instruction has no meaning. -/
inductive Refusal where
  /-- Raised by `exec` alone, for an instruction rejected by name. Safe: nothing is claimed of it. No arm uses it. -/
  | notModelled (mnemonic : String)
deriving DecidableEq, Repr

/-- R38: the block right after a hardware reset with configuration `cfg`, the host having done nothing yet. S, BLK_IN,
BLK_OUT and LCMD are unspecified there and hold 0, DESIGN CHOICE (log entry 6), unsafe. -/
def State.resetOf (cfg : Config) : State where
  cfg := cfg
  sponge := Vector.replicate 16 0
  blkIn := Vector.replicate 12 0
  blkOut := Vector.replicate 12 0
  params := ⟨0, 0, 0, 0, 0, 0⟩
  cursor := ⟨0, 0, 0, 0, 0, 0, 0⟩
  busy := false
  wign := false
  err := .none
  phase := .idle
  lcmd := 0
  mem := []
  engineDelay := 0
  draws := 0
  host := []
  reads := []

/-- R38: the machine right after reset, in the configuration of log entry 7. -/
def State.reset : State := State.resetOf Config.default

end Sys2Proof.Machine
end

