-- ==== Sys2Proof/Machine/Flags.lean ====
section
/-! DEFINITION. STATUS: its codes and its word (R27 to R29), the parameter lock (R69) and the phases a command is legal
in (R136). -/

namespace Sys2Proof.Machine

/-- R27: the code of a phase. -/
def Phase.code : Phase → Nat
  | .idle => 0
  | .absorbing => 1
  | .rowInit0 => 2
  | .rowInit1 => 3
  | .setup => 4
  | .wandering => 5
  | .wrapUp => 6
  | .done => 7

/-- R29: the code of an error. -/
def ErrCode.code : ErrCode → Nat
  | .none => 0
  | .illegal => 1
  | .phase => 2
  | .param => 3
  | .alloc => 4

/-- R28: the STATUS word with these fields; bits 3:2 and 63:12 are 0. -/
def packStatus (busy wign : Bool) (err phase : Nat) : Word :=
  BitVec.ofNat 64 (busy.toNat + 2 * wign.toNat + 16 * (err % 16) + 256 * (phase % 16))

/-- R28: the STATUS word of a state in which no command is in progress. -/
def State.statusWord (s : State) : Word := packStatus s.busy s.wign s.err.code s.phase.code

/-- R71(b), U2: the STATUS word read while a command is in progress: BUSY reads 1, WIGN its value, ERR and PHASE are
free. -/
def State.busyStatusWord (s : State) : Word :=
  packStatus true s.wign (Config.freeWord s.draws).toNat ((Config.freeWord s.draws).toNat / 16)

/-- R69: a derivation is in progress (PHASE 1..6), so the parameter registers are locked. -/
def Phase.midDerivation : Phase → Bool
  | .idle | .done => false
  | .absorbing | .rowInit0 | .rowInit1 | .setup | .wandering | .wrapUp => true

/-- R136: legal in every phase. -/
def anyPhase : Phase → Bool := fun _ => true

/-- R136: legal in IDLE and DONE only (the sponge primitives). -/
def idleOrDone (p : Phase) : Bool := p == .idle || p == .done

/-- R136: legal in one phase only (a phase step). -/
def onlyIn (q p : Phase) : Bool := p == q

end Sys2Proof.Machine
end

