-- ==== Sys2Proof/Machine/Operands.lean ====
section
/-! DEFINITION. Words, bytes and blocks as operands: rotation (R9), block arithmetic (R11), byte packing (R12, R62),
the rate (R21), rotW (R137), the padded input and its bytes (R141 to R143), the matrix cursor's integers (R10, R139). -/

namespace Sys2Proof.Machine

/-- R9: rotation right by `n`, 1 ≤ n ≤ 63. -/
def rotr (x : Word) (n : Nat) : Word := (x >>> n) ||| (x <<< (64 - n))

/-- R12: the 8 bytes of a word, least significant first. -/
def leBytes (w : Word) : List Byte :=
  [w.extractLsb' 0 8, w.extractLsb' 8 8, w.extractLsb' 16 8, w.extractLsb' 24 8,
   w.extractLsb' 32 8, w.extractLsb' 40 8, w.extractLsb' 48 8, w.extractLsb' 56 8]

/-- R12: the sum of b[i]·2^(8i). -/
def leSum : List Byte → Nat
  | [] => 0
  | b :: bs => b.toNat + 2 ^ 8 * leSum bs

/-- R12: the word whose bytes are these, least significant first. -/
def leWord (bytes : List Byte) : Word := BitVec.ofNat 64 (leSum bytes)

/-- R12: the block whose word k is bytes 8k .. 8k+7. -/
def leBlock (bytes : List Byte) : Block := Vector.ofFn fun k => leWord ((bytes.drop (8 * k)).take 8)

/-- R12: the 96 bytes of a block, word 0 first. -/
def blockBytes (b : Block) : List Byte := b.toList.flatMap leBytes

/-- R11: word-wise XOR of blocks. -/
def blockXor (x y : Block) : Block := Vector.ofFn fun k => x[k] ^^^ y[k]

/-- R11: word-wise addition modulo 2^64 of blocks. -/
def blockAdd (x y : Block) : Block := Vector.ofFn fun k => x[k] + y[k]

/-- R21: the rate S[0..11]. -/
def rate (S : Sponge) : Block := Vector.ofFn fun k => S[k.val]

/-- R115 XorRate: a block into the rate; the capacity words keep their values (R22). -/
def xorRate (S : Sponge) (b : Block) : Sponge :=
  Vector.ofFn fun k => if h : k.val < 12 then S[k] ^^^ b[k.val] else S[k]

/-- R137: word 0 receives o[11] and word k receives o[k-1]. -/
def rotW (o : Block) : Block :=
  Vector.ofFn fun k => o[(k.val + 11) % 12]'(Nat.mod_lt _ (by decide))

/-- Bytes `a .. a+n-1` of a buffer, zero past its end (R151's `z`). -/
def bytesAt (buf : List Byte) (a n : Nat) : List Byte := (List.range' a n).map fun i => buf.getD i 0

/-- R142, R143: the 10*1 padding of `data` to whole blocks of `blk` bytes: 0x80 right after the data, bit 0 of the last
byte set. -/
def padTo (blk : Nat) (data : List Byte) : List Byte :=
  let n := blk * (data.length / blk + 1)
  let buf := data ++ List.replicate (n - data.length) 0
  (buf.set data.length 0x80).modify (n - 1) (· ||| 0x01)

/-- R139: the Wandering stride of pass `t` over `R` rows. -/
def wStep (R t : Nat) : Int := if t % 2 = 0 then -1 else (R / 2 : Nat) - 1

/-- R10: the Euclidean remainder, in 0 .. b-1 for b ≥ 1. -/
def emod (a : Int) (b : Nat) : Nat := (a % (b : Int)).toNat

end Sys2Proof.Machine
end

