-- ==== Sys2Proof/Machine/Ops.lean ====
section
/-! DEFINITION. The named operations: the stores (R60 to R67), small updates of the state, entering an error and the
return from it (R212 to R215), and the common execution of a command (R212). -/

namespace Sys2Proof.Machine

/-- R64: the window offset of IN[0]. -/
def inBase : Nat := 0x01000000

/-- R65: the window offset of OUT[0]. -/
def outBase : Nat := 0x02000000

/-- R66: the window offset of MAT[0]. -/
def matBase : Nat := 0x8000000000

/-- The canonical form of a memory: offsets strictly rising. Every written byte is listed, and only those. -/
abbrev Memory.wf (m : Memory) : Prop := m.Pairwise fun x y => x.1 < y.1

/-- The byte written at offset `a`, if any. -/
def Memory.byteAt : Memory → Nat → Option Byte
  | [], _ => none
  | (k, v) :: m, a => if k = a then some v else Memory.byteAt m a

/-- Consecutive cells from offset `a` on. -/
def cellsFrom (a : Nat) : List Byte → Memory
  | [] => []
  | b :: bs => (a, b) :: cellsFrom (a + 1) bs

/-- The memory with `bs` written at offsets `a`, `a + 1`, … -/
def Memory.store (m : Memory) (a : Nat) (bs : List Byte) : Memory :=
  m.filter (fun c => c.1 < a) ++ cellsFrom a bs ++ m.filter (fun c => a + bs.length ≤ c.1)

/-- The cells at offsets `a .. a + n - 1`. -/
def Memory.slice (m : Memory) (a n : Nat) : Memory := m.filter fun c => a ≤ c.1 && c.1 < a + n

/-- One byte as draw number `d` reads it: what was written, or a free byte (U3, log entry 5). -/
def Memory.readByte (m : Memory) (d a : Nat) : Byte := (Memory.byteAt m a).getD (Config.freeByte d a)

/-- `n` bytes from offset `a` on, as draw number `d` reads them. -/
def Memory.load (m : Memory) (d a n : Nat) : List Byte :=
  let part := Memory.slice m a n
  (List.range' a n).map fun x => Memory.readByte part d x

/-- The next read of unwritten or unspecified data draws afresh (U1, U3). -/
def State.nextDraw (s : State) : State := { s with draws := s.draws + 1 }

/-- S <- `S` (R21). -/
def State.setSponge (s : State) (S : Sponge) : State := { s with sponge := S }

/-- BLK_OUT <- `b` (R24). -/
def State.setBlkOut (s : State) (b : Block) : State := { s with blkOut := b }

/-- The parameter registers (R25). -/
def State.setParams (s : State) (p : Params) : State := { s with params := p }

/-- The cursor registers (R26). -/
def State.setCursor (s : State) (c : Cursor) : State := { s with cursor := c }

/-- STATUS.PHASE <- `p` (R27). -/
def State.setPhase (s : State) (p : Phase) : State := { s with phase := p }

/-- Bytes written into the stores. -/
def State.storeBytes (s : State) (a : Nat) (bs : List Byte) : State := { s with mem := Memory.store s.mem a bs }

/-- `n` bytes of the stores from offset `a` on. -/
def State.loadBytes (s : State) (a n : Nat) : List Byte := Memory.load s.mem s.draws a n

/-- R67: the window offset of cell M[r][c] under the current NCOLS. -/
def State.cellAddr (s : State) (r c : Nat) : Nat := matBase + 8 * ((r * s.params.ncols.toNat + c) * 12)

/-- R67: the cell M[r][c] as the next draw reads it. -/
def State.readCell (s : State) (r c : Nat) : Block := leBlock (s.loadBytes (s.cellAddr r c) 96)

/-- R67: M[r][c] <- b. -/
def State.writeCell (s : State) (r c : Nat) (b : Block) : State := s.storeBytes (s.cellAddr r c) (blockBytes b)

/-- R138: M[r][c] <- M[r][c] XOR b, reading the cell's current value. -/
def State.xorCell (s : State) (r c : Nat) (b : Block) : State :=
  (s.writeCell r c (blockXor (s.readCell r c) b)).nextDraw

/-- OUT[i] <- o[i] for every byte of `o` (R34). -/
def State.writeOut (s : State) (o : List Byte) : State := s.storeBytes outBase o

/-- R213: error entry. Only STATUS.ERR changes; nothing else is saved and nothing is jumped to. -/
def State.raise (s : State) (code : ErrCode) : State := { s with err := code }

/-- R196, R215: the return from an error: ERR and WIGN are cleared, everything else is kept. -/
def State.clearError (s : State) : State := { s with err := .none, wign := false }

/-- R197, R215: the other return: control state to its reset values, data state kept. LCMD keeps the latched word, DESIGN
CHOICE (log entry 17): R38 leaves it unspecified after SRST. -/
def State.softReset (s : State) : State :=
  { s with
    params := ⟨0, 0, 0, 0, 0, 0⟩
    cursor := ⟨0, 0, 0, 0, 0, 0, 0⟩
    err := .none
    wign := false
    phase := .idle }

/-- R71: the command in progress completes. -/
def State.complete (s : State) : State := { s with busy := false, engineDelay := 0 }

/-- R212: the common execution of a decoded command other than CLRERR and SRST: suppression (R214), the phase check
(R208), then the body, which may raise an error before its first write (R213). -/
def runCommand (legal : Phase → Bool) (body : State → Except ErrCode State) (s : State) :
    Host.Outcome State Fault Refusal :=
  if s.err ≠ .none then .next s.complete
  else if legal s.phase = true then
    match body s with
    | .ok t => .next t.complete
    | .error code => .next (s.raise code).complete
  else .next (s.raise .phase).complete

/-- R212, R214: the execution of CLRERR and SRST, which no recorded error suppresses and every phase allows. -/
def runRecovery (body : State → State) (s : State) : Host.Outcome State Fault Refusal := .next (body s).complete

/-- R207, R212: the execution of a word that is no command: suppressed, or the error ILLEGAL. -/
def runIllegal (s : State) : Host.Outcome State Fault Refusal :=
  if s.err ≠ .none then .next s.complete else .next (s.raise .illegal).complete

end Sys2Proof.Machine
end

