-- ==== Sys2Proof/Machine/Control.lean ====
section
/-! DEFINITION. Control commands (44_control.md). -/

namespace Sys2Proof.Machine

/-- R195 NOP. -/
def execNop (s : State) : Host.Outcome State Fault Refusal := runCommand anyPhase .ok s

/-- R196 CLRERR. -/
def execClrerr (s : State) : Host.Outcome State Fault Refusal := runRecovery State.clearError s

/-- R197 SRST. -/
def execSrst (s : State) : Host.Outcome State Fault Refusal := runRecovery State.softReset s

end Sys2Proof.Machine
end

