-- ==== Sys2Proof/Machine/Permutation.lean ====
section
/-! DEFINITION. The Permutation Core (40_permutation.md): the round function, P1, P12, and the commands PERM and
PERM_R. -/

namespace Sys2Proof.Machine

/-- R101: the mixing function G on four words. -/
def mixG (rot : Rot) (a b c d : Word) : Word × Word × Word × Word :=
  let a := a + b
  let d := rotr (d ^^^ a) rot.r0
  let c := c + d
  let b := rotr (b ^^^ c) rot.r1
  let a := a + b
  let d := rotr (d ^^^ a) rot.r2
  let c := c + d
  let b := rotr (b ^^^ c) rot.r3
  (a, b, c, d)

/-- R102: G applied to the four words at indices i, j, k, l. -/
def mixAt (rot : Rot) (S : Sponge) (i j k l : Fin 16) : Sponge :=
  let g := mixG rot S[i] S[j] S[k] S[l]
  (((S.set i g.1).set j g.2.1).set k g.2.2.1).set l g.2.2.2

/-- R100, R102: the four column quadruples, each G reading the words as the one before left them. -/
def mixColumns (rot : Rot) (S : Sponge) : Sponge :=
  mixAt rot (mixAt rot (mixAt rot (mixAt rot S 0 4 8 12) 1 5 9 13) 2 6 10 14) 3 7 11 15

/-- R100, R102: the four diagonal quadruples. -/
def mixDiagonals (rot : Rot) (S : Sponge) : Sponge :=
  mixAt rot (mixAt rot (mixAt rot (mixAt rot S 0 5 10 15) 1 6 11 12) 2 7 8 13) 3 4 9 14

/-- R102: one round. -/
def rnd (rot : Rot) (S : Sponge) : Sponge := mixDiagonals rot (mixColumns rot S)

/-- `n` rounds in sequence. -/
def rounds (rot : Rot) : Nat → Sponge → Sponge
  | 0, S => S
  | n + 1, S => rounds rot n (rnd rot S)

/-- R104: the reduced permutation, one round. -/
def p1 (rot : Rot) (S : Sponge) : Sponge := rnd rot S

/-- R103: the full permutation, 12 rounds. -/
def p12 (rot : Rot) (S : Sponge) : Sponge := rounds rot 12 S

/-- R106 PERM: S <- P12(S). -/
def execPerm (s : State) : Host.Outcome State Fault Refusal :=
  runCommand idleOrDone (fun s => .ok (s.setSponge (p12 s.cfg.rot s.sponge))) s

/-- R107 PERM_R: S <- P1(S). -/
def execPermR (s : State) : Host.Outcome State Fault Refusal :=
  runCommand idleOrDone (fun s => .ok (s.setSponge (p1 s.cfg.rot s.sponge))) s

end Sys2Proof.Machine
end

