-- ==== Sys2Proof/Machine/Sponge.lean ====
section
/-! DEFINITION. The Sponge Engine (41_sponge.md): the initial state, absorbing, duplexing and squeezing, and the commands
INIT, ABSORB, DUPLEX, DUPLEX_R and SQUEEZE. -/

namespace Sys2Proof.Machine

/-- R116: the initial state of a profile. -/
def initState (cfg : Config) : Sponge :=
  match cfg.profile with
  | .doc => Vector.ofFn fun i => if h : i.val < 12 then 0 else cfg.iv[i.val - 8]
  | .ref => Vector.ofFn fun i => if h : i.val < 8 then 0 else cfg.iv[i.val - 8]

/-- R115: Absorb(S, b). -/
def absorbBlock (rot : Rot) (S : Sponge) (b : Block) : Sponge := p12 rot (xorRate S b)

/-- R115: DuplexFull(S, b), the new state and its rate. -/
def duplexFull (rot : Rot) (S : Sponge) (b : Block) : Sponge × Block :=
  let S := p12 rot (xorRate S b)
  (S, rate S)

/-- R115: DuplexRed(S, b), the new state and its rate. -/
def duplexRed (rot : Rot) (S : Sponge) (b : Block) : Sponge × Block :=
  let S := p1 rot (xorRate S b)
  (S, rate S)

/-- R121: `q` whole blocks squeezed, a P12 after each. -/
def squeezeBlocks (rot : Rot) : Nat → Sponge → Sponge × List Byte
  | 0, S => (S, [])
  | q + 1, S =>
    let r := squeezeBlocks rot q (p12 rot S)
    (r.1, blockBytes (rate S) ++ r.2)

/-- R121: Squeeze(S, n), the new state and the n bytes. -/
def squeeze (rot : Rot) (S : Sponge) (n : Nat) : Sponge × List Byte :=
  let r := squeezeBlocks rot (n / 96) S
  (r.1, r.2 ++ (blockBytes (rate r.1)).take (n % 96))

/-- R117 INIT. -/
def execInit (s : State) : Host.Outcome State Fault Refusal :=
  runCommand idleOrDone (fun s => .ok (s.setSponge (initState s.cfg))) s

/-- R118 ABSORB. -/
def execAbsorb (s : State) : Host.Outcome State Fault Refusal :=
  runCommand idleOrDone (fun s => .ok (s.setSponge (absorbBlock s.cfg.rot s.sponge s.blkIn))) s

/-- The state after a duplexing that gave the new sponge state and the block output `r` (R119, R120). -/
def State.afterDuplex (s : State) (r : Sponge × Block) : State := (s.setSponge r.1).setBlkOut r.2

/-- R119 DUPLEX. -/
def execDuplex (s : State) : Host.Outcome State Fault Refusal :=
  runCommand idleOrDone (fun s => .ok (s.afterDuplex (duplexFull s.cfg.rot s.sponge s.blkIn))) s

/-- R120 DUPLEX_R. -/
def execDuplexR (s : State) : Host.Outcome State Fault Refusal :=
  runCommand idleOrDone (fun s => .ok (s.afterDuplex (duplexRed s.cfg.rot s.sponge s.blkIn))) s

/-- The state after squeezing `n` bytes into OUT[0 .. n-1] (R121, R122, R158); the bytes past them keep their values
(R34). -/
def State.squeezeToOut (s : State) (n : Nat) : State :=
  let r := squeeze s.cfg.rot s.sponge n
  (s.setSponge r.1).writeOut r.2

/-- R122: the body of SQUEEZE n. -/
def squeezeBody (n : Nat) (s : State) : Except ErrCode State :=
  if s.cfg.outBytes < n then .error .param else .ok (s.squeezeToOut n)

/-- R122 SQUEEZE n. -/
def execSqueeze (n : Nat) (s : State) : Host.Outcome State Fault Refusal := runCommand idleOrDone (squeezeBody n) s

end Sys2Proof.Machine
end

