-- ==== Sys2Proof/Machine/Matrix.lean ====
section
/-! DEFINITION. The Memory Matrix Engine (42_matrix.md): validation, the padded input, and the seven phase commands. -/

namespace Sys2Proof.Machine

/-- R140: the padding block size in bytes, by profile. -/
def padBlock (cfg : Config) : Nat :=
  match cfg.profile with
  | .doc => 96
  | .ref => 64

/-- R140: PadLen(L). -/
def padLen (cfg : Config) (L : Nat) : Nat := padBlock cfg * ((L + 48) / padBlock cfg + 1)

/-- R140: PWDLEN + SALTLEN on unbounded integers. -/
def Params.inputLength (p : Params) : Nat := p.pwdlen.toNat + p.saltlen.toNat

/-- R140: Validate(), the first check that fails. -/
def validate (cfg : Config) (p : Params) : Option ErrCode :=
  if p.nrows.toNat < 2 ∨ 65535 < p.nrows.toNat then some .param
  else if p.ncols.toNat < 1 ∨ 65535 < p.ncols.toNat then some .param
  else if cfg.outBytes < p.klen.toNat then some .param
  else if cfg.inBytes < p.inputLength then some .param
  else if 96 * p.ncols.toNat < padLen cfg p.inputLength then some .param
  else if cfg.matWords < p.nrows.toNat * p.ncols.toNat * 12 then some .alloc
  else none

/-- R141: the 48 bytes of the basil. -/
def basil (p : Params) : List Byte :=
  leBytes p.klen ++ leBytes p.pwdlen ++ leBytes p.saltlen ++ leBytes p.tcost ++ leBytes p.nrows ++ leBytes p.ncols

/-- R142, R143: PadInput(), the padded bytes of IN[0 .. L-1] and the basil. -/
def State.paddedInput (s : State) : List Byte :=
  padTo (padBlock s.cfg) (s.loadBytes inBase s.params.inputLength ++ basil s.params)

/-- R142, R143: the number of blocks of the padded input. -/
def State.inputBlocks (s : State) : Nat := (s.params.inputLength + 48) / padBlock s.cfg + 1

/-- R151: the byte stride between the blocks M_ABSORB reads. -/
def State.inputStride (s : State) : Nat :=
  match s.cfg.profile with
  | .doc => 96
  | .ref => if s.params.ncols.toNat = 4 then 64 else 512

/-- R151: block `i` of the padded input `buf`, as it goes into the rate: 12 words in profile DOC, 8 words and four
zeros in profile REF. -/
def State.inputBlock (s : State) (buf : List Byte) (i : Nat) : Block :=
  match s.cfg.profile with
  | .doc => leBlock (bytesAt buf (s.inputStride * i) 96)
  | .ref => leBlock (bytesAt buf (s.inputStride * i) 64 ++ List.replicate 32 0)

/-- R150: the cursor registers M_START writes. -/
def startCursor : Cursor := ⟨2, 1, 0, 1, 2, 1, 0⟩

/-- R150: the body of M_START after Validate. -/
def startBody (s : State) : State := ((s.setSponge (initState s.cfg)).setCursor startCursor).setPhase .absorbing

/-- R150: the body of M_START. -/
def validatedStart (s : State) : Except ErrCode State :=
  match validate s.cfg s.params with
  | some code => .error code
  | none => .ok (startBody s)

/-- R150 M_START. -/
def execMStart (s : State) : Host.Outcome State Fault Refusal := runCommand anyPhase validatedStart s

/-- R151: the body of M_ABSORB; the padded input is read once. -/
def absorbBody (s : State) : State :=
  let buf := s.paddedInput
  let S := (List.range s.inputBlocks).foldl (fun S i => absorbBlock s.cfg.rot S (s.inputBlock buf i)) s.sponge
  (s.nextDraw.setSponge S).setPhase .rowInit0

/-- R151 M_ABSORB. -/
def execMAbsorb (s : State) : Host.Outcome State Fault Refusal :=
  runCommand (onlyIn .absorbing) (fun s => .ok (absorbBody s)) s

/-- R152: one column of M_ROW0. -/
def row0Column (s : State) (i : Nat) : State :=
  (s.writeCell 0 (s.params.ncols.toNat - 1 - i) (rate s.sponge)).setSponge (p1 s.cfg.rot s.sponge)

/-- R152: the body of M_ROW0. -/
def row0Body (s : State) : State :=
  ((List.range s.params.ncols.toNat).foldl row0Column s).setPhase .rowInit1

/-- R152 M_ROW0. -/
def execMRow0 (s : State) : Host.Outcome State Fault Refusal :=
  runCommand (onlyIn .rowInit0) (fun s => .ok (row0Body s)) s

/-- R144: EnterWandering(). -/
def enterWandering (s : State) : State :=
  if s.params.tcost = 0 then s.setPhase .wrapUp
  else
    (s.setCursor
      { s.cursor with tau := 1, row := 0, step := BitVec.ofInt 64 (wStep s.params.nrows.toNat 1) }).setPhase .wandering

/-- R153: one column of M_ROW1. -/
def row1Column (s : State) (c : Nat) : State :=
  let a := s.readCell 0 c
  let r := duplexRed s.cfg.rot s.sponge a
  (s.nextDraw.setSponge r.1).writeCell 1 (s.params.ncols.toNat - 1 - c) (blockXor a r.2)

/-- R153: the body of M_ROW1. -/
def row1Body (s : State) : State :=
  let t := (List.range s.params.ncols.toNat).foldl row1Column s
  if 2 < s.params.nrows.toNat then t.setPhase .setup else enterWandering t

/-- R153 M_ROW1. -/
def execMRow1 (s : State) : Host.Outcome State Fault Refusal :=
  runCommand (onlyIn .rowInit1) (fun s => .ok (row1Body s)) s

/-- R138, R154, R156: both input cells M[prev][c] and M[rowa][c] of a column are read, then their word-wise sum is
duplexed; the state after it, M[prev][c] as read, and the block output. -/
def duplexRows (s : State) (prev rowa c : Nat) : State × Block × Block :=
  let a := s.readCell prev c
  let b := s.nextDraw.readCell rowa c
  let r := duplexRed s.cfg.rot s.sponge (blockAdd a b)
  (s.nextDraw.nextDraw.setSponge r.1, a, r.2)

/-- R154: one column of M_SETUP_ROW. -/
def setupColumn (row prev rowa : Nat) (s : State) (c : Nat) : State :=
  let d := duplexRows s prev rowa c
  (d.1.writeCell row (s.params.ncols.toNat - 1 - c) (blockXor d.2.1 d.2.2)).xorCell rowa c (rotW d.2.2)

/-- R154: the cursor after a Setup row; its arithmetic is on integers (R10, log entry 11). -/
def nextSetupCursor (c : Cursor) : Cursor :=
  let rowa := ((c.rowa.toNat : Int) + c.step.toInt).toNat &&& (c.window.toNat - 1)
  let moved := { c with
    rowa := BitVec.ofNat 64 rowa
    prev := c.row
    row := BitVec.ofNat 64 (c.row.toNat + 1) }
  if rowa = 0 then
    { moved with
      step := BitVec.ofInt 64 ((c.window.toNat : Int) + c.gap.toInt)
      window := BitVec.ofNat 64 (2 * c.window.toNat)
      gap := BitVec.ofInt 64 (-c.gap.toInt) }
  else moved

/-- R154: the body of M_SETUP_ROW. -/
def setupRowBody (s : State) : State :=
  let k := s.cursor
  let t := (List.range s.params.ncols.toNat).foldl (setupColumn k.row.toNat k.prev.toNat k.rowa.toNat) s
  let t := t.setCursor (nextSetupCursor k)
  if t.cursor.row = s.params.nrows then enterWandering t else t

/-- R154 M_SETUP_ROW. -/
def execMSetupRow (s : State) : Host.Outcome State Fault Refusal :=
  runCommand (onlyIn .setup) (fun s => .ok (setupRowBody s)) s

/-- R156: one column of M_WANDER_ROW. -/
def wanderColumn (row prev rowa : Nat) (s : State) (c : Nat) : State :=
  let d := duplexRows s prev rowa c
  (d.1.xorCell row c d.2.2).xorCell rowa c (rotW d.2.2)

/-- R156: the data-dependent row*, from S[0] as it stands before the row's first duplexing. -/
def State.wanderRowa (s : State) : Nat := emod (s.sponge[0].toNat : Int) s.params.nrows.toNat

/-- R156: the cursor after a row visit, `rowa` being its row*, on R rows; when ROW returns to 0 before the last pass,
the next pass begins. -/
def nextWanderCursor (R : Nat) (tcost : Word) (rowa : Nat) (c : Cursor) : Cursor :=
  let moved := { c with
    rowa := BitVec.ofNat 64 rowa
    prev := c.row
    row := BitVec.ofNat 64 (emod ((c.row.toNat : Int) + c.step.toInt) R) }
  if moved.row = 0 ∧ c.tau ≠ tcost then
    { moved with
      tau := BitVec.ofNat 64 (c.tau.toNat + 1)
      step := BitVec.ofInt 64 (wStep R (c.tau.toNat + 1)) }
  else moved

/-- R156: the body of M_WANDER_ROW. -/
def wanderRowBody (s : State) : State :=
  let k := s.cursor
  let rowa := s.wanderRowa
  let t := (List.range s.params.ncols.toNat).foldl (wanderColumn k.row.toNat k.prev.toNat rowa) s
  let t := t.setCursor (nextWanderCursor s.params.nrows.toNat s.params.tcost rowa k)
  if t.cursor.row = 0 ∧ k.tau = s.params.tcost then t.setPhase .wrapUp else t

/-- R156 M_WANDER_ROW. -/
def execMWanderRow (s : State) : Host.Outcome State Fault Refusal :=
  runCommand (onlyIn .wandering) (fun s => .ok (wanderRowBody s)) s

/-- R158: the body of M_WRAPUP. -/
def wrapupBody (s : State) : State :=
  let b := s.readCell s.cursor.rowa.toNat 0
  ((s.nextDraw.setSponge (duplexFull s.cfg.rot s.sponge b).1).squeezeToOut s.params.klen.toNat).setPhase .done

/-- R158 M_WRAPUP. -/
def execMWrapup (s : State) : Host.Outcome State Fault Refusal :=
  runCommand (onlyIn .wrapUp) (fun s => .ok (wrapupBody s)) s

end Sys2Proof.Machine
end

