-- ==== Sys2Proof/Machine/Derive.lean ====
section
/-! DEFINITION. The key derivation entry points (43_derive.md): DERIVE and DERIVE_FIXED. -/

namespace Sys2Proof.Machine

/-- R180: `while PHASE = p: body`, at most `fuel` times. -/
def whilePhase (p : Phase) (body : State → State) : Nat → State → State
  | 0, s => s
  | n + 1, s => if s.phase = p then whilePhase p body n (body s) else s

/-- R180: the Setup loop. It ends within R rows (R155, R159; log entry 13). -/
def setupLoop (s : State) : State := whilePhase .setup setupRowBody s.params.nrows.toNat s

/-- R180: the Wandering loop. It ends within R rows a pass, T passes (R157; log entry 13). -/
def wanderLoop (s : State) : State :=
  whilePhase .wandering wanderRowBody (s.params.tcost.toNat * s.params.nrows.toNat) s

/-- R180: the bodies of the phase commands in sequence, after Validate. -/
def deriveRun (s : State) : State :=
  wrapupBody (wanderLoop (setupLoop (row1Body (row0Body (absorbBody (startBody s))))))

/-- R180: the body of DERIVE. -/
def deriveBody (s : State) : Except ErrCode State :=
  match validate s.cfg s.params with
  | some code => .error code
  | none => .ok (deriveRun s)

/-- R180 DERIVE. -/
def execDerive (s : State) : Host.Outcome State Fault Refusal := runCommand anyPhase deriveBody s

/-- R182: the parameter registers of the fixed-shape form. -/
def fixedParams (cfg : Config) : Params := ⟨32, 32, 32, cfg.fixedT, 4, BitVec.ofNat 64 cfg.fixedC⟩

/-- R182: the body of DERIVE_FIXED. -/
def deriveFixedBody (s : State) : Except ErrCode State := deriveBody (s.setParams (fixedParams s.cfg))

/-- R182 DERIVE_FIXED. -/
def execDeriveFixed (s : State) : Host.Outcome State Fault Refusal := runCommand anyPhase deriveFixedBody s

end Sys2Proof.Machine
end

