-- ==== Sys2Proof/Machine/Dispatch.lean ====
section
/-! DEFINITION. One arm per command (R88): each calls its meaning. -/

namespace Sys2Proof.Machine

def exec (i : Instr) (s : State) : Host.Outcome State Fault Refusal :=
  match i with
  | .nop => Sys2Proof.Machine.execNop s
  | .clrerr => Sys2Proof.Machine.execClrerr s
  | .srst => Sys2Proof.Machine.execSrst s
  | .init => Sys2Proof.Machine.execInit s
  | .perm => Sys2Proof.Machine.execPerm s
  | .permR => Sys2Proof.Machine.execPermR s
  | .absorb => Sys2Proof.Machine.execAbsorb s
  | .duplex => Sys2Proof.Machine.execDuplex s
  | .duplexR => Sys2Proof.Machine.execDuplexR s
  | .squeeze n => Sys2Proof.Machine.execSqueeze n s
  | .mStart => Sys2Proof.Machine.execMStart s
  | .mAbsorb => Sys2Proof.Machine.execMAbsorb s
  | .mRow0 => Sys2Proof.Machine.execMRow0 s
  | .mRow1 => Sys2Proof.Machine.execMRow1 s
  | .mSetupRow => Sys2Proof.Machine.execMSetupRow s
  | .mWanderRow => Sys2Proof.Machine.execMWanderRow s
  | .mWrapup => Sys2Proof.Machine.execMWrapup s
  | .derive => Sys2Proof.Machine.execDerive s
  | .deriveFixed => Sys2Proof.Machine.execDeriveFixed s

end Sys2Proof.Machine
end

