-- ==== Sys2Proof/Machine/Engine.lean ====
section
/-! DEFINITION. The engine's step (R71, R85, R212): it decodes LCMD and executes it. -/

namespace Sys2Proof.Machine

/-- R212: Execute(LCMD). -/
def engineStep (s : State) : Host.Outcome State Fault Refusal :=
  match decode s.lcmd with
  | .ok i => exec i s
  | .error _ => runIllegal s

/-- The state in which the engine's step comes next, for the command word `v`: what a CMD write leaves (R71), its time
come. -/
def State.withCommand (s : State) (v : Word) : State := { s with lcmd := v, busy := true, engineDelay := 0 }

end Sys2Proof.Machine
end

