-- ==== Sys2Proof/Machine/HostPort.lean ====
section
/-! DEFINITION. The host window (20_memory.md): which access is admitted (R61), what an offset names (R63 to R66), what a
read returns and a write does with and without a command in progress (R68, R69, R71), the reset input (R235), and the
host's pseudo-instructions (R94). -/

namespace Sys2Proof.Machine

/-- R61: an access of `width` bytes at `offset` is admitted. -/
def admitted (offset width : Nat) : Bool := width == 8 && offset % 8 == 0 && decide (offset < 2 ^ 40)

/-- R63: the registers below 0x100. -/
def controlTarget (offset : Nat) : Target :=
  match offset with
  | 0x000 => .id
  | 0x008 => .capMatWords
  | 0x010 => .capInBytes
  | 0x018 => .capOutBytes
  | 0x020 => .capFixedC
  | 0x028 => .capFixedT
  | 0x030 => .capProfile
  | 0x040 => .cmd
  | 0x048 => .status
  | 0x050 => .param .klen
  | 0x058 => .param .pwdlen
  | 0x060 => .param .saltlen
  | 0x068 => .param .tcost
  | 0x070 => .param .nrows
  | 0x078 => .param .ncols
  | 0x080 => .cursor .row
  | 0x088 => .cursor .prev
  | 0x090 => .cursor .rowa
  | 0x098 => .cursor .step
  | 0x0A0 => .cursor .window
  | 0x0A8 => .cursor .gap
  | 0x0B0 => .cursor .tau
  | _ => .unmapped

/-- R63 to R66, R68: what an admitted offset names. -/
def target (cfg : Config) (offset : Nat) : Target :=
  if offset < 0x100 then controlTarget offset
  else if offset < 0x180 then .sponge (Fin.ofNat 16 ((offset - 0x100) / 8))
  else if offset < 0x1E0 then .blkIn (Fin.ofNat 12 ((offset - 0x180) / 8))
  else if 0x200 ≤ offset ∧ offset < 0x260 then .blkOut (Fin.ofNat 12 ((offset - 0x200) / 8))
  else if inBase ≤ offset ∧ offset < inBase + cfg.inBytes then .inBuf
  else if outBase ≤ offset ∧ offset < outBase + cfg.outBytes then .outBuf
  else if matBase ≤ offset ∧ offset < matBase + 8 * cfg.matWords then .mat
  else .unmapped

/-- R30: the ID register. -/
def idWord : Word := 0x0000000053500001#64

/-- R31: CAP_PROFILE. -/
def profileWord : Profile → Word
  | .doc => 0
  | .ref => 1

/-- R25: one parameter register. -/
def Params.get (p : Params) : ParamReg → Word
  | .klen => p.klen
  | .pwdlen => p.pwdlen
  | .saltlen => p.saltlen
  | .tcost => p.tcost
  | .nrows => p.nrows
  | .ncols => p.ncols

/-- R25: one parameter register written; any 64-bit value is taken. -/
def Params.set (p : Params) (r : ParamReg) (v : Word) : Params :=
  match r with
  | .klen => { p with klen := v }
  | .pwdlen => { p with pwdlen := v }
  | .saltlen => { p with saltlen := v }
  | .tcost => { p with tcost := v }
  | .nrows => { p with nrows := v }
  | .ncols => { p with ncols := v }

/-- R26: one cursor register. -/
def Cursor.get (c : Cursor) : CursorReg → Word
  | .row => c.row
  | .prev => c.prev
  | .rowa => c.rowa
  | .step => c.step
  | .window => c.window
  | .gap => c.gap
  | .tau => c.tau

/-- The word at an offset of IN, OUT or MAT (R62, R64 to R66). -/
def State.windowWord (s : State) (offset : Nat) : Word := leWord (s.loadBytes offset 8)

/-- The defined value of what an admitted offset names (R28, R30 to R32, R63 to R68). -/
def State.targetWord (s : State) (offset : Nat) : Target → Word
  | .id => idWord
  | .capMatWords => BitVec.ofNat 64 s.cfg.matWords
  | .capInBytes => BitVec.ofNat 64 s.cfg.inBytes
  | .capOutBytes => BitVec.ofNat 64 s.cfg.outBytes
  | .capFixedC => BitVec.ofNat 64 s.cfg.fixedC
  | .capFixedT => s.cfg.fixedT
  | .capProfile => profileWord s.cfg.profile
  | .cmd => 0
  | .status => s.statusWord
  | .param r => s.params.get r
  | .cursor r => s.cursor.get r
  | .sponge i => s.sponge[i]
  | .blkIn k => s.blkIn[k]
  | .blkOut k => s.blkOut[k]
  | .inBuf | .outBuf | .mat => s.windowWord offset
  | .unmapped => 0

/-- R71: the value of what an admitted offset names while a command is in progress: (b) STATUS, (c) the defined ones,
(d) any value. -/
def State.targetWordBusy (s : State) (offset : Nat) (t : Target) : Word :=
  match t with
  | .status => s.busyStatusWord
  | .id | .capMatWords | .capInBytes | .capOutBytes | .capFixedC | .capFixedT | .capProfile | .cmd | .inBuf
  | .blkIn _ | .unmapped => s.targetWord offset t
  | .sponge _ | .blkOut _ | .param _ | .cursor _ | .outBuf | .mat => Config.freeWord s.draws

/-- The value an admitted host read returns. -/
def State.hostRead (s : State) (offset : Nat) : Word :=
  if s.busy then s.targetWordBusy offset (target s.cfg offset) else s.targetWord offset (target s.cfg offset)

/-- R69, R211: a host write is ignored and WIGN records it. -/
def State.ignoreWrite (s : State) : State := { s with wign := true }

/-- R71: a CMD write of v issues the command word v; its completion time is free (U8, log entry 2). -/
def State.issue (s : State) (v : Word) : State :=
  { s with lcmd := v, busy := true, engineDelay := Config.latency s.draws, draws := s.draws + 1 }

/-- R21: a host write of S[i]. -/
def State.hostSetSponge (s : State) (i : Fin 16) (v : Word) : State := { s with sponge := s.sponge.set i v }

/-- R23: a host write of BLK_IN[k]. -/
def State.hostSetBlkIn (s : State) (k : Fin 12) (v : Word) : State := { s with blkIn := s.blkIn.set k v }

/-- R68, R69: an admitted host write to what the offset names, no command being in progress. -/
def State.writeTarget (s : State) (offset : Nat) (v : Word) : Target → State
  | .cmd => s.issue v
  | .param r => if s.phase.midDerivation then s.ignoreWrite else s.setParams (s.params.set r v)
  | .sponge i => s.hostSetSponge i v
  | .blkIn k => s.hostSetBlkIn k v
  | .inBuf | .mat => s.storeBytes offset (leBytes v)
  | .id | .capMatWords | .capInBytes | .capOutBytes | .capFixedC | .capFixedT | .capProfile | .status | .cursor _
  | .blkOut _ | .outBuf | .unmapped => s

/-- R69, R71: what an admitted host write does. -/
def State.hostWrite (s : State) (offset : Nat) (v : Word) : State :=
  if s.busy then s.ignoreWrite else s.writeTarget offset v (target s.cfg offset)

/-- One host access has passed while a command may be in progress (log entry 2). -/
def State.tick (s : State) : State := { s with engineDelay := s.engineDelay - 1 }

/-- The host keeps the value a read returned (log entry 1); the next read of unspecified data draws afresh. -/
def State.recordRead (s : State) (v : Word) : State := { s with reads := v :: s.reads, draws := s.draws + 1 }

/-- `n` words of unspecified data, from draw number `d` on. -/
def freeWords (n d : Nat) : Vector Word n := Vector.ofFn fun i => Config.freeWord (d + i.val)

/-- R235, R38, U5: the reset input: control state as after reset, data state any value (log entry 9), a command in
progress abandoned. The configuration is constant, and the host's own record is no state of the block. -/
def State.hardReset (s : State) : State :=
  { State.resetOf s.cfg with
    sponge := freeWords 16 s.draws
    blkIn := freeWords 12 (s.draws + 16)
    blkOut := freeWords 12 (s.draws + 28)
    lcmd := Config.freeWord (s.draws + 40)
    draws := s.draws + 41
    host := s.host
    reads := s.reads }

/-- One host event that has its turn; `wait` has it only once BUSY = 0. -/
def hostEvent (e : HostEvent) (s : State) : Host.Outcome State Fault Refusal :=
  match e with
  | .read offset width =>
    if admitted offset width then .next (s.tick.recordRead (s.hostRead offset)) else .fault (.hostStuck offset width)
  | .write offset width v =>
    if admitted offset width then .next (s.tick.hostWrite offset v) else .fault (.hostStuck offset width)
  | .wait => .next s
  | .reset => .next s.hardReset

/-- The host's side of a step: its oldest event, or none (R236: the block waits, R223: its state persists). -/
def hostStep (s : State) : Host.Outcome State Fault Refusal :=
  match s.host with
  | [] => .next s
  | e :: rest => hostEvent e { s with host := rest }

/-- The next host event cannot come before the command in progress completes: there is none, or it waits for
completion (R94, log entry 3), or the host is stuck at it (R61, log entry 4). -/
def hostWaits : List HostEvent → Bool
  | [] => true
  | .wait :: _ => true
  | .read offset width :: _ => !admitted offset width
  | .write offset width _ :: _ => !admitted offset width
  | .reset :: _ => false

/-- Whose step is next: the engine's when a command is in progress and its time has come (R71, R246). -/
def engineTurn (s : State) : Bool := s.busy && (hostWaits s.host || s.engineDelay == 0)

/-- R94 `wr <target>, <value>`: one 8-byte host write. -/
def wr (offset : Nat) (v : Word) : List HostEvent := [.write offset 8 v]

/-- R94 `rd <target>`: one 8-byte host read. -/
def rd (offset : Nat) : List HostEvent := [.read offset 8]

/-- R94 `cmd X`: a write of the command's word to CMD. -/
def cmd (i : Instr) : List HostEvent := wr 0x040 (encode i)

/-- R94 `run X`. -/
def run (i : Instr) : List HostEvent := cmd i ++ [.wait]

/-- R94 `wrbytes IN+o`: the bytes eight at a time (the words given from the first on). -/
def wrwords (offset : Nat) : List Word → List HostEvent
  | [] => []
  | w :: ws => wr offset w ++ wrwords (offset + 8) ws

/-- R94 `wrbytes IN+o, b0 …`: a whole number of words of bytes, from IN[o] on. -/
def wrbytes (o : Nat) (bytes : List Byte) : List HostEvent :=
  wrwords (inBase + o) ((List.range (bytes.length / 8)).map fun j => leWord (bytesAt bytes (8 * j) 8))

/-- R94 `wrblock BLK_IN, w0 … w11`. -/
def wrblock (b : Block) : List HostEvent := wrwords 0x180 b.toList

end Sys2Proof.Machine
end

