-- ==== Sys2Proof/Machine/Step.lean ====
section
/-! DEFINITION. One step of the machine: the engine's or the host's (R3, R71, R73). -/

namespace Sys2Proof.Machine

/-- One step. -/
def step (s : State) : Host.Outcome State Fault Refusal := if engineTurn s then engineStep s else hostStep s

/-- `s` with a command of the opcode table issued and due: the very next step executes it. Nothing is fetched on this
hardware (R76); this stands for the host's CMD write (log entry 1). -/
def State.withFetchWord (s : State) (nbits w : Nat) : State := s.withCommand (BitVec.ofNat 64 (w % 2 ^ nbits))

end Sys2Proof.Machine
end

