-- ==== Sys2Proof/Safety.lean ====
section
/-! DEFINITION. The terms claims about the machine are made in: outcomes, what the stores hold, the spec's tables of legal
phases (R136) and errors (R206), the duplexing chain of a row, the matrix cursor's invariants (R155, R156), and the
machine's invariant. -/

namespace Sys2Proof.Machine

/-- A step that is safe: it gives a next state. -/
def isNext : Host.Outcome State Fault Refusal → Bool
  | .next _ => true
  | .fault _ => false
  | .refused _ => false

/-- The stores hold the written bytes `bs` from window offset `a` on. -/
def State.holds (s : State) (a : Nat) (bs : List Byte) : Prop :=
  ∀ j, j < bs.length → Memory.byteAt s.mem (a + j) = bs[j]?

/-- Cell M[r][c] (R67) holds the written block `b`. -/
def State.cellHolds (s : State) (r c : Nat) (b : Block) : Prop := s.holds (s.cellAddr r c) (blockBytes b)

/-- Every byte outside `n` bytes from offset `a` is as it was: listed with the same value, or unlisted. -/
def sameOutside (m m' : Memory) (a n : Nat) : Prop :=
  ∀ x, (x < a ∨ a + n ≤ x) → Memory.byteAt m' x = Memory.byteAt m x

/-- R64 to R66: the offset is a byte of IN, OUT or MAT. -/
def storeOffset (c : Config) (a : Nat) : Prop :=
  (inBase ≤ a ∧ a < inBase + c.inBytes) ∨ (outBase ≤ a ∧ a < outBase + c.outBytes) ∨
    (matBase ≤ a ∧ a < matBase + 8 * c.matWords)

/-- R136: the phases a command is legal in. -/
def legalPhases : Instr → List Phase
  | .nop | .clrerr | .srst | .mStart | .derive | .deriveFixed =>
    [.idle, .absorbing, .rowInit0, .rowInit1, .setup, .wandering, .wrapUp, .done]
  | .init | .perm | .permR | .absorb | .duplex | .duplexR | .squeeze _ => [.idle, .done]
  | .mAbsorb => [.absorbing]
  | .mRow0 => [.rowInit0]
  | .mRow1 => [.rowInit1]
  | .mSetupRow => [.setup]
  | .mWanderRow => [.wandering]
  | .mWrapup => [.wrapUp]

/-- R206: the errors a decoded command can raise. -/
def possibleErrors : Instr → List ErrCode
  | .nop | .clrerr | .srst | .deriveFixed => []
  | .init | .perm | .permR | .absorb | .duplex | .duplexR => [.phase]
  | .squeeze _ => [.phase, .param]
  | .mStart | .derive => [.param, .alloc]
  | .mAbsorb | .mRow0 | .mRow1 | .mSetupRow | .mWanderRow | .mWrapup => [.phase]

/-- R196, R197, R214: the two commands a recorded error does not suppress. -/
def recovers : Instr → Bool
  | .clrerr | .srst => true
  | .nop | .init | .perm | .permR | .absorb | .duplex | .duplexR | .squeeze _
  | .mStart | .mAbsorb | .mRow0 | .mRow1 | .mSetupRow | .mWanderRow | .mWrapup | .derive | .deriveFixed => false

/-- The sponge state after `n` reduced duplexings of the blocks `b 0`, `b 1`, … (R115). -/
def duplexChain (rot : Rot) (S : Sponge) (b : Nat → Block) : Nat → Sponge
  | 0 => S
  | n + 1 => p1 rot (xorRate (duplexChain rot S b n) (b n))

/-- The sponge state after absorbing the blocks `b 0`, …, `b (n-1)` (R115). -/
def absorbChain (rot : Rot) (S : Sponge) (b : Nat → Block) : Nat → Sponge
  | 0 => S
  | n + 1 => p12 rot (xorRate (absorbChain rot S b n) (b n))

/-- R155: the cursor before a Setup row of an R-row matrix, with the relation that makes ROWA run through all WINDOW
residues before it returns to 0. -/
structure SetupCursor (R : Nat) (c : Cursor) : Prop where
  window_pow : ∃ k, 1 ≤ k ∧ c.window.toNat = 2 ^ k
  window_le : c.window.toNat ≤ c.row.toNat
  row_lt_window : c.row.toNat < 2 * c.window.toNat
  row_lt : c.row.toNat < R
  prev_row : c.prev.toNat + 1 = c.row.toNat
  rowa_lt : c.rowa.toNat < c.prev.toNat
  gap_unit : c.gap.toInt = 1 ∨ c.gap.toInt = -1
  step_odd : c.step.toInt % 2 = 1
  step_pos : 1 ≤ c.step.toInt
  step_le : c.step.toInt ≤ 16385
  rowa_eq : (c.rowa.toNat : Int) = (c.step.toInt * ((c.row.toNat : Int) - c.window.toNat)) % c.window.toNat

/-- R156: the cursor before a Wandering row visit of an R-row matrix with time cost `T`. -/
structure WanderCursor (R : Nat) (T : Word) (c : Cursor) : Prop where
  row_lt : c.row.toNat < R
  prev_lt : c.prev.toNat < R
  tau_pos : 1 ≤ c.tau.toNat
  tau_le : c.tau.toNat ≤ T.toNat
  step_eq : c.step.toInt = wStep R c.tau.toNat

/-- R144: PHASE and cursor after EnterWandering. -/
def afterEnterWandering (p : Params) (c : Cursor) : Phase × Cursor :=
  if p.tcost = 0 then (.wrapUp, c)
  else (.wandering, { c with tau := 1, row := 0, step := BitVec.ofInt 64 (wStep p.nrows.toNat 1) })

/-- R135: the changes of PHASE a command may make in a state with these parameters and this cursor, from `p` to
`q`. -/
def allowedMove (i : Instr) (s : State) (p q : Phase) : Prop :=
  match i with
  | .srst => q = .idle
  | .mStart => validate s.cfg s.params = none ∧ q = .absorbing
  | .mAbsorb => p = .absorbing ∧ q = .rowInit0
  | .mRow0 => p = .rowInit0 ∧ q = .rowInit1
  | .mRow1 => p = .rowInit1 ∧
      (2 < s.params.nrows.toNat ∧ q = .setup ∨
        s.params.nrows.toNat ≤ 2 ∧ q = (afterEnterWandering s.params s.cursor).1)
  | .mSetupRow => p = .setup ∧ BitVec.ofNat 64 (s.cursor.row.toNat + 1) = s.params.nrows ∧
      q = (afterEnterWandering s.params s.cursor).1
  | .mWanderRow => p = .wandering ∧ s.cursor.tau = s.params.tcost ∧
      ((s.cursor.row.toNat : Int) + s.cursor.step.toInt) % (s.params.nrows.toNat : Int) = 0 ∧ q = .wrapUp
  | .mWrapup => p = .wrapUp ∧ q = .done
  | .derive => validate s.cfg s.params = none ∧ q = .done
  | .deriveFixed => q = .done
  | .nop | .clrerr | .init | .perm | .permR | .absorb | .duplex | .duplexR | .squeeze _ => False

/-- What holds in every state a run reaches. -/
structure State.Inv (s : State) : Prop where
  /-- R7: the configuration is legal. -/
  cfg_legal : s.cfg.Legal
  /-- The stores keep their canonical form. -/
  mem_wf : Memory.wf s.mem
  /-- R64 to R66, R79: only bytes of IN, OUT and MAT are ever written. -/
  mem_mapped : ∀ c ∈ s.mem, storeOffset s.cfg c.1
  /-- R71: no completion is pending when no command is in progress. -/
  idle_delay : s.busy = false → s.engineDelay = 0
  /-- R241: while a derivation is in progress its parameters are the validated ones. -/
  valid : s.phase.midDerivation = true → validate s.cfg s.params = none
  /-- R150: up to RowInit1 the cursor is M_START's. -/
  start : s.phase = .absorbing ∨ s.phase = .rowInit0 ∨ s.phase = .rowInit1 → s.cursor = startCursor
  /-- R155. -/
  setup : s.phase = .setup → SetupCursor s.params.nrows.toNat s.cursor
  /-- R156. -/
  wandering : s.phase = .wandering → WanderCursor s.params.nrows.toNat s.params.tcost s.cursor
  /-- R158: the row M_WRAPUP reads is a row of the matrix. -/
  wrapUp : s.phase = .wrapUp → s.cursor.rowa.toNat < s.params.nrows.toNat

/-- The commands of a list executed one after the other, each from the state the one before left; `none` where one does
not give a next state. -/
def execAll : List Instr → State → Option State
  | [], s => some s
  | i :: is, s =>
    match exec i s with
    | .next t => execAll is t
    | .fault _ => none
    | .refused _ => none

/-- R157: the number of row visits of a Wandering pass whose stride is `d` modulo R. -/
def passVisits (R t : Nat) : Nat := R / Nat.gcd (emod (wStep R t) R) R

/-- R157, R159: the number of row visits of passes 1 .. T. -/
def wanderVisits (R : Nat) : Nat → Nat
  | 0 => 0
  | t + 1 => wanderVisits R t + passVisits R (t + 1)

/-- R159: the commands of a derivation driven step by step. -/
def stepSequence (R T : Nat) : List Instr :=
  [.mStart, .mAbsorb, .mRow0, .mRow1] ++ List.replicate (R - 2) .mSetupRow ++
    List.replicate (wanderVisits R T) .mWanderRow ++ [.mWrapup]

end Sys2Proof.Machine
end

