-- ==== Sys2Proof/Certificates/Slice0/Obligations.lean ====
section
/-! DEFINITION. The statements about sponge_permutation_core for the provers, each formalising rules of spec/. Next states
are written out field by field, so each equation states the result and the frame at once: a field not named keeps its
value. The fields engineDelay, draws, host and reads are the model's own, not the spec's (log entries 1, 2, 8): an equation
says engineDelay := 0 where BUSY is cleared because the model's count of host accesses ends there. -/

open Sys2Proof Sys2Proof.Machine

/-! ### Encoding (30_encoding.md) -/

/-- Every well-formed command is decoded from its own word. -/
def Obligations.DecodeOfEncode : Prop :=
  ∀ i : Instr, i.wellFormed = true → decode (encode i) = .ok i

/-- R95 and the converse: a word that decodes is the word of its command, and the command is well-formed: each word has
one meaning. -/
def Obligations.EncodeOfDecode : Prop :=
  ∀ (v : Word) (i : Instr), decode v = .ok i → encode i = v ∧ i.wellFormed = true

/-- R89's match/mask form, for every one of the 19 commands. -/
def Obligations.DecodeMatchesMasks : Prop :=
  ∀ v : Word,
    (∀ n, decode v = .ok (.squeeze n) ↔
      v &&& 0xFFFFFFFF0000FFFF#64 = 0x16#64 ∧ n = (v >>> 16).toNat % 2 ^ 16) ∧
    (∀ p ∈ [(Instr.nop, 0x00#64), (.clrerr, 0x01#64), (.srst, 0x02#64), (.init, 0x10#64), (.perm, 0x11#64),
        (.permR, 0x12#64), (.absorb, 0x13#64), (.duplex, 0x14#64), (.duplexR, 0x15#64), (.mStart, 0x20#64),
        (.mAbsorb, 0x21#64), (.mRow0, 0x22#64), (.mRow1, 0x23#64), (.mSetupRow, 0x24#64), (.mWanderRow, 0x25#64),
        (.mWrapup, 0x26#64), (.derive, 0x30#64), (.deriveFixed, 0x31#64)],
      decode v = .ok p.1 ↔ v = p.2)

/-- R90: which words are illegal. -/
def Obligations.IllegalEncodings : Prop :=
  ∀ v : Word,
    let opc := v.toNat % 2 ^ 8
    let rsv0 := v.toNat / 2 ^ 8 % 2 ^ 8
    let imm16 := v.toNat / 2 ^ 16 % 2 ^ 16
    let rsv1 := v.toNat / 2 ^ 32
    decodeOption v = none ↔
      (0x03 ≤ opc ∧ opc ≤ 0x0F) ∨ (0x17 ≤ opc ∧ opc ≤ 0x1F) ∨ (0x27 ≤ opc ∧ opc ≤ 0x2F) ∨ (0x32 ≤ opc ∧ opc ≤ 0xFF) ∨
        rsv0 ≠ 0 ∨ rsv1 ≠ 0 ∨ (imm16 ≠ 0 ∧ opc ≠ 0x16)

/-- A word of each family, written out from R86 and R88, decodes to its command; R95's two examples. -/
def Obligations.DecodeSampleWords : Prop :=
  decodeOption 0x0000000000000002#64 = some .srst ∧
  decodeOption 0x0000000000000012#64 = some .permR ∧
  decodeOption 0x0000000000200016#64 = some (.squeeze 32) ∧
  decodeOption 0x0000000000000025#64 = some .mWanderRow ∧
  decodeOption 0x0000000000000030#64 = some .derive ∧
  encode (.squeeze 32) = 0x0000000000200016#64 ∧
  encode .derive = 0x0000000000000030#64

/-! ### The step: execution, errors, completion (20_memory.md R71, 60_exceptions.md) -/

/-- The step at a state whose command's time has come executes the decoded command word; where the word is no command it
executes an illegal word; `withFetchWord` makes such a state. -/
def Obligations.StepRunsDecodedCommand : Prop :=
  (∀ (s : State) (i : Instr), s.busy = true → (s.engineDelay = 0 ∨ hostWaits s.host = true) →
    decode s.lcmd = .ok i → step s = exec i s) ∧
  (∀ (s : State) (e : IllegalWord), s.busy = true → (s.engineDelay = 0 ∨ hostWaits s.host = true) →
    decode s.lcmd = .error e → step s = runIllegal s) ∧
  (∀ (s : State) (i : Instr) (nbits w : Nat), decodeTableWord nbits w = some i →
    step (s.withFetchWord nbits w) = exec i (s.withFetchWord nbits w))

/-- R214: while an error is recorded every command but CLRERR and SRST, and every illegal word, completes with no effect
at all, and the error stays the first one recorded. -/
def Obligations.SuppressionWhileErrorRecorded : Prop :=
  ∀ s : State, s.err ≠ .none →
    (∀ i : Instr, recovers i = false → exec i s = .next { s with busy := false, engineDelay := 0 }) ∧
    (decodeOption s.lcmd = none → engineStep s = .next { s with busy := false, engineDelay := 0 })

/-- R207: an undefined word raises ILLEGAL (code 1), records nothing else, and no host read depends on LCMD. -/
def Obligations.IllegalWordRaisesIllegal : Prop :=
  (∀ s : State, s.err = .none → decodeOption s.lcmd = none →
    engineStep s = .next { s with err := .illegal, busy := false, engineDelay := 0 }) ∧
  ErrCode.illegal.code = 1 ∧
  (∀ (s : State) (v : Word) (offset : Nat), ({ s with lcmd := v } : State).hostRead offset = s.hostRead offset)

/-- R136, R208: a command issued in a phase not listed for it raises PHASE and has no other effect; in a listed phase it
does not raise PHASE. -/
def Obligations.PhaseLegality : Prop :=
  (∀ (i : Instr) (s : State), s.err = .none → s.phase ∉ legalPhases i →
    exec i s = .next { s with err := .phase, busy := false, engineDelay := 0 }) ∧
  (∀ (i : Instr) (s t : State), s.err = .none → s.phase ∈ legalPhases i → exec i s = .next t → t.err ≠ .phase)

/-- R213: an error that a command or an illegal word enters changes STATUS.ERR, completes the command, and changes
nothing else. -/
def Obligations.ErrorEntryIsPrecise : Prop :=
  ∀ s t : State, s.err = .none → engineStep s = .next t → t.err ≠ .none →
    t = { s with err := t.err, busy := false, engineDelay := 0 }

/-- R206: a command raises only the errors its row of the table allows (DERIVE_FIXED's row needs R7's bounds), and each
error a row allows is raised in some state. -/
def Obligations.ErrorsByCommand : Prop :=
  (∀ (i : Instr) (s t : State), s.cfg.Legal → s.err = .none → exec i s = .next t →
    t.err = .none ∨ t.err ∈ possibleErrors i) ∧
  (∀ (i : Instr) (e : ErrCode), e ∈ possibleErrors i → ∃ (j : Instr) (s t : State), j.opcode = i.opcode ∧
    j.wellFormed = true ∧ s.cfg.Legal ∧ s.err = .none ∧ exec j s = .next t ∧ t.err = e)

/-- R196: CLRERR after a failing command restores the state the failing command saw, WIGN aside. -/
def Obligations.ClrerrRestoresFailedState : Prop :=
  ∀ (i : Instr) (s t : State), s.err = .none → exec i s = .next t → t.err ≠ .none →
    exec .clrerr t = .next { s with wign := false, busy := false, engineDelay := 0 }

/-- R246 with R71: a command in progress completes within as many host accesses as its free completion time says, without
a stop, whatever the host does meanwhile. -/
def Obligations.CommandCompletes : Prop :=
  ∀ s : State, s.busy = true → ∃ (k : Nat) (t : State), k ≤ s.engineDelay + 1 ∧
    Host.Core.run core k s = .next t ∧ t.busy = false

/-- R61, U4: the machine stops exactly where the host is stuck at an access that is not admitted and no command is left
to complete; it never refuses. -/
def Obligations.StepStopsOnlyWhenHostStuck : Prop :=
  ∀ s : State,
    (∀ r : Refusal, step s ≠ .refused r) ∧
    (∀ f : Fault, step s = .fault f ↔
      s.busy = false ∧ ∃ offset width, f = .hostStuck offset width ∧
        ¬ (width = 8 ∧ offset % 8 = 0 ∧ offset < 2 ^ 40) ∧
        ((∃ rest, s.host = .read offset width :: rest) ∨ ∃ v rest, s.host = .write offset width v :: rest))

/-! ### Control commands (44_control.md) -/

/-- R195, R196, R197: NOP, CLRERR and SRST complete in every state. That LCMD keeps its word after SRST is the model's choice
(log entry 17); R38 leaves it unspecified. -/
def Obligations.ControlCommands : Prop :=
  ∀ s : State,
    exec .nop s = .next { s with busy := false, engineDelay := 0 } ∧
    exec .clrerr s = .next { s with err := .none, wign := false, busy := false, engineDelay := 0 } ∧
    exec .srst s = .next { s with
      params := ⟨0, 0, 0, 0, 0, 0⟩
      cursor := ⟨0, 0, 0, 0, 0, 0, 0⟩
      err := .none
      wign := false
      phase := .idle
      busy := false
      engineDelay := 0 }

/-! ### Permutation Core (40_permutation.md) -/

/-- R105: P12 is P1 twelve times; the all-zero state is a fixed point of both; both are bijections. -/
def Obligations.PermutationProperties : Prop :=
  ∀ rot : Rot,
    (∀ S : Sponge, p12 rot S = (p1 rot)^[12] S) ∧
    (p1 rot (Vector.replicate 16 0) = Vector.replicate 16 0 ∧ p12 rot (Vector.replicate 16 0) = Vector.replicate 16 0) ∧
    (legalRotation rot.r0 → legalRotation rot.r1 → legalRotation rot.r2 → legalRotation rot.r3 →
      Function.Bijective (rnd rot) ∧ Function.Bijective (p1 rot) ∧ Function.Bijective (p12 rot))

/-- R102: mixing two quadruples that share no word gives the same state in either order; the four column quadruples and
the four diagonal ones are such. -/
def Obligations.DisjointMixingCommutes : Prop :=
  ∀ (rot : Rot) (S : Sponge) (i j k l i' j' k' l' : Fin 16),
    [i, j, k, l].Nodup → [i', j', k', l'].Nodup → (∀ x ∈ [i, j, k, l], x ∉ [i', j', k', l']) →
    mixAt rot (mixAt rot S i j k l) i' j' k' l' = mixAt rot (mixAt rot S i' j' k' l') i j k l

/-- R106, R107: PERM and PERM_R in IDLE and DONE. -/
def Obligations.PermutationCommands : Prop :=
  ∀ s : State, s.err = .none → (s.phase = .idle ∨ s.phase = .done) →
    exec .perm s = .next { s with sponge := p12 s.cfg.rot s.sponge, busy := false, engineDelay := 0 } ∧
    exec .permR s = .next { s with sponge := p1 s.cfg.rot s.sponge, busy := false, engineDelay := 0 }

/-! ### Sponge Engine (41_sponge.md) -/

/-- R22, R115: XorRate XORs a block into words 0..11 and leaves the capacity words; R116: what InitState puts in each
word. -/
def Obligations.RateAndCapacity : Prop :=
  (∀ (S : Sponge) (b : Block) (k : Nat) (h : k < 12), (xorRate S b)[k]'(by omega) = S[k]'(by omega) ^^^ b[k]) ∧
  (∀ (S : Sponge) (b : Block) (k : Nat) (_ : 12 ≤ k) (h : k < 16), (xorRate S b)[k] = S[k]) ∧
  (∀ cfg : Config, cfg.profile = .doc →
    (∀ (k : Nat) (_ : k < 12), (initState cfg)[k]'(by omega) = 0) ∧
    (∀ (k : Nat) (_ : k < 4), (initState cfg)[12 + k]'(by omega) = cfg.iv[4 + k]'(by omega))) ∧
  (∀ cfg : Config, cfg.profile = .ref →
    (∀ (k : Nat) (_ : k < 8), (initState cfg)[k]'(by omega) = 0) ∧
    (∀ (k : Nat) (_ : k < 8), (initState cfg)[8 + k]'(by omega) = cfg.iv[k]'(by omega)))

/-- R117 to R120: INIT, ABSORB, DUPLEX and DUPLEX_R in IDLE and DONE. -/
def Obligations.SpongeCommands : Prop :=
  ∀ s : State, s.err = .none → (s.phase = .idle ∨ s.phase = .done) →
    exec .init s = .next { s with sponge := initState s.cfg, busy := false, engineDelay := 0 } ∧
    exec .absorb s = .next
      { s with sponge := p12 s.cfg.rot (xorRate s.sponge s.blkIn), busy := false, engineDelay := 0 } ∧
    exec .duplex s = .next { s with
      sponge := p12 s.cfg.rot (xorRate s.sponge s.blkIn)
      blkOut := rate (p12 s.cfg.rot (xorRate s.sponge s.blkIn))
      busy := false
      engineDelay := 0 } ∧
    exec .duplexR s = .next { s with
      sponge := p1 s.cfg.rot (xorRate s.sponge s.blkIn)
      blkOut := rate (p1 s.cfg.rot (xorRate s.sponge s.blkIn))
      busy := false
      engineDelay := 0 }

/-- R123: for n = 96q + r the squeeze leaves P12^q(S) and gives the rate bytes of S, P12(S), …, P12^(q-1)(S) and the
first r of P12^q(S); the first n bytes of a squeeze of n + 1 are the squeeze of n. -/
def Obligations.SqueezeComposition : Prop :=
  ∀ (rot : Rot) (S : Sponge),
    (∀ q r : Nat, r < 96 →
      squeeze rot S (96 * q + r) =
        ((p12 rot)^[q] S,
          ((List.range q).flatMap fun j => blockBytes (rate ((p12 rot)^[j] S))) ++
            (blockBytes (rate ((p12 rot)^[q] S))).take r)) ∧
    (∀ n : Nat, (squeeze rot S (n + 1)).2.take n = (squeeze rot S n).2)

/-- R122: SQUEEZE n in IDLE and DONE: the squeezed state and OUT[0 .. n-1] when n ≤ OUT_BYTES, every other byte and
register unchanged; PARAM with no other effect when n > OUT_BYTES. -/
def Obligations.SqueezeCommand : Prop :=
  ∀ (s : State) (n : Nat), s.err = .none → (s.phase = .idle ∨ s.phase = .done) →
    (n ≤ s.cfg.outBytes → ∃ m : Memory,
      exec (.squeeze n) s = .next
        { s with sponge := (squeeze s.cfg.rot s.sponge n).1, mem := m, busy := false, engineDelay := 0 } ∧
      (∀ j, j < n → Memory.byteAt m (outBase + j) = (squeeze s.cfg.rot s.sponge n).2[j]?) ∧
      (squeeze s.cfg.rot s.sponge n).2.length = n ∧
      sameOutside s.mem m outBase n) ∧
    (s.cfg.outBytes < n → exec (.squeeze n) s = .next { s with err := .param, busy := false, engineDelay := 0 })

/-! ### Memory Matrix Engine (42_matrix.md) -/

/-- R137: rotW. -/
def Obligations.RotWMovesWords : Prop :=
  ∀ o : Block, (rotW o)[0] = o[11] ∧ ∀ (k : Nat) (_ : 0 < k) (h : k < 12), (rotW o)[k] = o[k - 1]

/-- R140, R210: M_START and DERIVE raise PARAM when a parameter check fails, ALLOC when every parameter check passes and
the matrix does not fit, with no other effect; and they raise nothing else. -/
def Obligations.ValidationErrors : Prop :=
  ∀ s : State, s.err = .none →
    let R := s.params.nrows.toNat
    let C := s.params.ncols.toNat
    let L := s.params.pwdlen.toNat + s.params.saltlen.toNat
    let bin := if s.cfg.profile = .doc then 96 else 64
    let paramsPass := (2 ≤ R ∧ R ≤ 65535) ∧ (1 ≤ C ∧ C ≤ 65535) ∧ s.params.klen.toNat ≤ s.cfg.outBytes ∧
      L ≤ s.cfg.inBytes ∧ bin * ((L + 48) / bin + 1) ≤ 96 * C
    ∀ i ∈ [Instr.mStart, Instr.derive],
      (¬ paramsPass → exec i s = .next { s with err := .param, busy := false, engineDelay := 0 }) ∧
      (paramsPass → s.cfg.matWords < R * C * 12 →
        exec i s = .next { s with err := .alloc, busy := false, engineDelay := 0 }) ∧
      (paramsPass → R * C * 12 ≤ s.cfg.matWords → ∃ t, exec i s = .next t ∧ t.err = .none)

/-- R150: M_START with valid parameters, in any phase. -/
def Obligations.MStartCommand : Prop :=
  ∀ s : State, s.err = .none → validate s.cfg s.params = none →
    exec .mStart s = .next { s with
      sponge := initState s.cfg
      cursor := ⟨2, 1, 0, 1, 2, 1, 0⟩
      phase := .absorbing
      busy := false
      engineDelay := 0 }

/-- R141: the basil is 48 bytes: KLEN, PWDLEN, SALTLEN, TCOST, NROWS, NCOLS, each little-endian. -/
def Obligations.BasilLayout : Prop :=
  ∀ p : Params, (basil p).length = 48 ∧
    ∀ (n : Nat) (w : Word), [p.klen, p.pwdlen, p.saltlen, p.tcost, p.nrows, p.ncols][n]? = some w →
      leWord (bytesAt (basil p) (8 * n) 8) = w ∧
        ∀ i, i < 8 → (basil p)[8 * n + i]? = some (w.extractLsb' (8 * i) 8)

/-- R142, R143: the padded input: a whole number of blocks, the data first, 0x80 right after it, bit 0 of the last byte
set, zeros between; one pad byte is 0x81. -/
def Obligations.PaddingLayout : Prop :=
  ∀ (blk : Nat) (data : List Byte), 0 < blk →
    let N := blk * (data.length / blk + 1)
    (padTo blk data).length = N ∧ data.length < N ∧
    (∀ i, i < data.length → (padTo blk data)[i]? = data[i]?) ∧
    (data.length + 1 = N → (padTo blk data)[data.length]? = some 0x81) ∧
    (data.length + 1 < N → (padTo blk data)[data.length]? = some 0x80 ∧ (padTo blk data)[N - 1]? = some 0x01 ∧
      ∀ i, data.length < i → i < N - 1 → (padTo blk data)[i]? = some 0)

/-- R151: M_ABSORB in ABSORBING, IN[0 .. L-1] holding the written bytes `input`: the padded input's blocks absorbed one
after the other, by profile. -/
def Obligations.MAbsorbCommand : Prop :=
  ∀ (s : State) (input : List Byte), s.err = .none → s.phase = .absorbing →
    input.length = s.params.pwdlen.toNat + s.params.saltlen.toNat → s.holds inBase input →
    let stride := if s.params.ncols.toNat = 4 then 64 else 512
    let doc := padTo 96 (input ++ basil s.params)
    let ref := padTo 64 (input ++ basil s.params)
    let docBlock := fun i => leBlock (bytesAt doc (96 * i) 96)
    let refBlock := fun i => leBlock (bytesAt ref (stride * i) 64 ++ List.replicate 32 0)
    ∃ d : Nat, exec .mAbsorb s = .next { s with
      sponge := match s.cfg.profile with
        | .doc => absorbChain s.cfg.rot s.sponge docBlock ((input.length + 48) / 96 + 1)
        | .ref => absorbChain s.cfg.rot s.sponge refBlock ((input.length + 48) / 64 + 1)
      phase := .rowInit0
      draws := d
      busy := false
      engineDelay := 0 }

/-- R152: M_ROW0 in ROWINIT0: block i squeezed goes to column C-1-i, a P1 after each; only row 0's bytes change. -/
def Obligations.MRow0Command : Prop :=
  ∀ s : State, s.err = .none → s.phase = .rowInit0 →
    let C := s.params.ncols.toNat
    ∃ m : Memory,
      let t : State := { s with
        sponge := (p1 s.cfg.rot)^[C] s.sponge
        mem := m
        phase := .rowInit1
        busy := false
        engineDelay := 0 }
      exec .mRow0 s = .next t ∧
      (∀ i, i < C → t.cellHolds 0 (C - 1 - i) (rate ((p1 s.cfg.rot)^[i] s.sponge))) ∧
      sameOutside s.mem m (s.cellAddr 0 0) (96 * C)

/-- R153, R144: M_ROW1 in ROWINIT1, row 0 holding the written blocks `a`: row 1 written backward, then SETUP when R > 2
and EnterWandering when not; only row 1's bytes change. -/
def Obligations.MRow1Command : Prop :=
  ∀ (s : State) (a : Nat → Block), s.err = .none → s.phase = .rowInit1 →
    (∀ c, c < s.params.ncols.toNat → s.cellHolds 0 c (a c)) →
    let C := s.params.ncols.toNat
    let S := duplexChain s.cfg.rot s.sponge a
    let next := if 2 < s.params.nrows.toNat then (Phase.setup, s.cursor) else afterEnterWandering s.params s.cursor
    ∃ (m : Memory) (d : Nat),
      let t : State := { s with
        sponge := S C
        mem := m
        phase := next.1
        cursor := next.2
        draws := d
        busy := false
        engineDelay := 0 }
      exec .mRow1 s = .next t ∧
      (∀ c, c < C → t.cellHolds 1 (C - 1 - c) (blockXor (a c) (rate (S (c + 1))))) ∧
      sameOutside s.mem m (s.cellAddr 1 0) (96 * C)

/-- R154: M_SETUP_ROW in SETUP with the cursor of R155, rows PREV and ROWA holding the written blocks `a` and `b`: the
sums duplexed, row ROW written backward, row ROWA updated forward; the cursor advances, and EnterWandering follows the
last row; only the bytes of rows ROW and ROWA change. -/
def Obligations.MSetupRowCommand : Prop :=
  ∀ (s : State) (a b : Nat → Block), s.err = .none → s.phase = .setup →
    SetupCursor s.params.nrows.toNat s.cursor →
    (∀ c, c < s.params.ncols.toNat → s.cellHolds s.cursor.prev.toNat c (a c)) →
    (∀ c, c < s.params.ncols.toNat → s.cellHolds s.cursor.rowa.toNat c (b c)) →
    let C := s.params.ncols.toNat
    let S := duplexChain s.cfg.rot s.sponge fun c => blockAdd (a c) (b c)
    let k := nextSetupCursor s.cursor
    let next := if s.cursor.row.toNat + 1 = s.params.nrows.toNat then afterEnterWandering s.params k else (.setup, k)
    ∃ (m : Memory) (d : Nat),
      let t : State := { s with
        sponge := S C
        mem := m
        phase := next.1
        cursor := next.2
        draws := d
        busy := false
        engineDelay := 0 }
      exec .mSetupRow s = .next t ∧
      (∀ c, c < C →
        t.cellHolds s.cursor.row.toNat (C - 1 - c) (blockXor (a c) (rate (S (c + 1)))) ∧
        t.cellHolds s.cursor.rowa.toNat c (blockXor (b c) (rotW (rate (S (c + 1)))))) ∧
      (∀ x, (x < s.cellAddr s.cursor.row.toNat 0 ∨ s.cellAddr s.cursor.row.toNat 0 + 96 * C ≤ x) →
        (x < s.cellAddr s.cursor.rowa.toNat 0 ∨ s.cellAddr s.cursor.rowa.toNat 0 + 96 * C ≤ x) →
        Memory.byteAt m x = Memory.byteAt s.mem x)

/-- R154: the cursor after a Setup row, on integers. -/
def Obligations.SetupCursorUpdate : Prop :=
  ∀ (R : Nat) (c : Cursor), R ≤ 65535 → SetupCursor R c →
    let n := nextSetupCursor c
    let rowa := (c.rowa.toNat + c.step.toInt.toNat) &&& (c.window.toNat - 1)
    n.rowa.toNat = rowa ∧ n.prev = c.row ∧ n.row.toNat = c.row.toNat + 1 ∧ n.tau = c.tau ∧
    (rowa = 0 → n.step.toInt = c.window.toNat + c.gap.toInt ∧ n.window.toNat = 2 * c.window.toNat ∧
      n.gap.toInt = -c.gap.toInt) ∧
    (rowa ≠ 0 → n.step = c.step ∧ n.window = c.window ∧ n.gap = c.gap)

/-- R155: M_START's cursor is a Setup cursor of every matrix with Setup rows, and every Setup row but the last leaves
one. -/
def Obligations.SetupScheduleInvariant : Prop :=
  ∀ R : Nat, R ≤ 65535 →
    (3 ≤ R → SetupCursor R startCursor) ∧
    ∀ c : Cursor, SetupCursor R c → c.row.toNat + 1 < R → SetupCursor R (nextSetupCursor c)

/-- R156: M_WANDER_ROW in WANDERING, rows ROW, PREV and row* holding written blocks: row* from S[0] before the row's first
duplexing, the sums duplexed, the XOR updates (both on one cell when row* = ROW), the cursor on integers, the pass test;
only the bytes of rows ROW and row* change. -/
def Obligations.MWanderRowCommand : Prop :=
  ∀ (s : State) (M : Nat → Nat → Block), s.err = .none → s.phase = .wandering →
    WanderCursor s.params.nrows.toNat s.params.tcost s.cursor →
    let C := s.params.ncols.toNat
    let R := s.params.nrows.toNat
    let row := s.cursor.row.toNat
    let prev := s.cursor.prev.toNat
    let rowa := s.sponge[0].toNat % R
    (∀ r, (r = row ∨ r = prev ∨ r = rowa) → ∀ c, c < C → s.cellHolds r c (M r c)) →
    let S := duplexChain s.cfg.rot s.sponge fun c => blockAdd (M prev c) (M rowa c)
    ∃ (m : Memory) (d : Nat) (k : Cursor) (p : Phase),
      let t : State := { s with
        sponge := S C
        mem := m
        phase := p
        cursor := k
        draws := d
        busy := false
        engineDelay := 0 }
      exec .mWanderRow s = .next t ∧
      (∀ c, c < C →
        (rowa = row → t.cellHolds row c
          (blockXor (blockXor (M row c) (rate (S (c + 1)))) (rotW (rate (S (c + 1)))))) ∧
        (rowa ≠ row → t.cellHolds row c (blockXor (M row c) (rate (S (c + 1)))) ∧
          t.cellHolds rowa c (blockXor (M rowa c) (rotW (rate (S (c + 1))))))) ∧
      (∀ x, (x < s.cellAddr row 0 ∨ s.cellAddr row 0 + 96 * C ≤ x) →
        (x < s.cellAddr rowa 0 ∨ s.cellAddr rowa 0 + 96 * C ≤ x) → Memory.byteAt m x = Memory.byteAt s.mem x) ∧
      k.rowa.toNat = rowa ∧ k.prev = s.cursor.row ∧
      (k.row.toNat : Int) = ((row : Int) + s.cursor.step.toInt) % (R : Int) ∧
      k.window = s.cursor.window ∧ k.gap = s.cursor.gap ∧
      (k.row.toNat = 0 ∧ s.cursor.tau = s.params.tcost →
        p = .wrapUp ∧ k.tau = s.cursor.tau ∧ k.step = s.cursor.step) ∧
      (k.row.toNat = 0 ∧ s.cursor.tau ≠ s.params.tcost →
        p = .wandering ∧ k.tau.toNat = s.cursor.tau.toNat + 1 ∧
          k.step = BitVec.ofInt 64 (wStep R (s.cursor.tau.toNat + 1))) ∧
      (k.row.toNat ≠ 0 → p = .wandering ∧ k.tau = s.cursor.tau ∧ k.step = s.cursor.step)

/-- R139, R157: a Wandering pass begins with ROW = 0 and ends at the first return to 0, after R / gcd(d, R) visits of
distinct rows, d the stride modulo R: all R rows when R is a power of two with R ≥ 4, row 0 alone on the odd passes of
R = 2 and 3. -/
def Obligations.WanderPassLength : Prop :=
  ∀ R t : Nat, 2 ≤ R →
    let advance := fun r : Nat => emod ((r : Int) + wStep R t) R
    let n := passVisits R t
    (0 < n ∧ n ≤ R) ∧ advance^[n] 0 = 0 ∧ (∀ k, 0 < k → k < n → advance^[k] 0 ≠ 0) ∧
    (∀ i j, i < n → j < n → advance^[i] 0 = advance^[j] 0 → i = j) ∧
    ((∃ k, 2 ≤ k ∧ R = 2 ^ k) → n = R) ∧
    ((R = 2 ∨ R = 3) → t % 2 = 1 → n = 1)

/-- R158: M_WRAPUP in WRAPUP, cell M[ROWA][0] holding the written block `b`: the duplexed and squeezed state and OUT[0 ..
KLEN-1]; every other byte, and BLK_OUT, unchanged. -/
def Obligations.MWrapupCommand : Prop :=
  ∀ (s : State) (b : Block), s.err = .none → s.phase = .wrapUp → s.cellHolds s.cursor.rowa.toNat 0 b →
    let n := s.params.klen.toNat
    let q := squeeze s.cfg.rot (p12 s.cfg.rot (xorRate s.sponge b)) n
    ∃ (m : Memory) (d : Nat),
      exec .mWrapup s = .next
        { s with sponge := q.1, mem := m, phase := .done, draws := d, busy := false, engineDelay := 0 } ∧
      (∀ j, j < n → Memory.byteAt m (outBase + j) = q.2[j]?) ∧
      sameOutside s.mem m outBase n

/-- The phase commands complete in their phase whatever the matrix holds, unwritten cells and IN bytes included, and keep
everything their rules do not write (R151 to R154, R156, R158). -/
def Obligations.PhaseCommandsCompleteWithFrame : Prop :=
  ∀ (i : Instr) (s : State), i ∈ [Instr.mAbsorb, .mRow0, .mRow1, .mSetupRow, .mWanderRow, .mWrapup] →
    s.err = .none → s.phase ∈ legalPhases i →
    ∃ (S : Sponge) (m : Memory) (p : Phase) (k : Cursor) (d : Nat),
      exec i s = .next
        { s with sponge := S, mem := m, phase := p, cursor := k, draws := d, busy := false, engineDelay := 0 } ∧
      (i = .mAbsorb → m = s.mem) ∧
      (i = .mAbsorb ∨ i = .mRow0 ∨ i = .mWrapup → k = s.cursor) ∧
      (i = .mRow1 → k.prev = s.cursor.prev ∧ k.rowa = s.cursor.rowa ∧ k.window = s.cursor.window ∧
        k.gap = s.cursor.gap) ∧
      (i = .mWanderRow → k.window = s.cursor.window ∧ k.gap = s.cursor.gap) ∧
      (∀ x, (i = .mWrapup → x < outBase ∨ outBase + s.params.klen.toNat ≤ x) →
        (∀ r, (i = .mRow0 ∧ r = 0) ∨ (i = .mRow1 ∧ r = 1) ∨
            (i = .mSetupRow ∧ (r = s.cursor.row.toNat ∨ r = s.cursor.rowa.toNat)) ∨
            (i = .mWanderRow ∧ (r = s.cursor.row.toNat ∨ r = s.wanderRowa)) →
          x < s.cellAddr r 0 ∨ s.cellAddr r 0 + 96 * s.params.ncols.toNat ≤ x) →
        Memory.byteAt m x = Memory.byteAt s.mem x)

/-- R135: in a state the invariant allows, a command changes PHASE only as its row of the table says. -/
def Obligations.PhaseTransitions : Prop :=
  ∀ (i : Instr) (s t : State), s.Inv → exec i s = .next t → t.phase ≠ s.phase → allowedMove i s s.phase t.phase

/-! ### Key derivation (43_derive.md) -/

/-- R180, R181, R159: DERIVE gives exactly the state that M_START, M_ABSORB, M_ROW0, M_ROW1, R - 2 times M_SETUP_ROW, the
Wandering visits of R157 and M_WRAPUP give one after the other, each in its legal phase; when Validate fails, DERIVE and
M_START alike leave only ERR changed. -/
def Obligations.DeriveEqualsSteps : Prop :=
  ∀ s : State, s.err = .none →
    (validate s.cfg s.params = none → ∃ t : State,
      exec .derive s = .next t ∧ t.err = .none ∧ t.phase = .done ∧
        execAll (stepSequence s.params.nrows.toNat s.params.tcost.toNat) s = some t) ∧
    (∀ e, validate s.cfg s.params = some e →
      exec .derive s = .next { s with err := e, busy := false, engineDelay := 0 } ∧ exec .mStart s = exec .derive s)

/-- R180, R79, R34: DERIVE with valid parameters completes in DONE and changes no register but S, the cursors and PHASE,
no MAT word at or beyond R·C·12, no OUT byte at or beyond KLEN and no IN byte. -/
def Obligations.DeriveCompletesWithFrame : Prop :=
  ∀ s : State, s.err = .none → validate s.cfg s.params = none →
    ∃ (S : Sponge) (m : Memory) (k : Cursor) (d : Nat),
      exec .derive s = .next
        { s with sponge := S, mem := m, cursor := k, phase := .done, draws := d, busy := false, engineDelay := 0 } ∧
      ∀ x, (x < outBase ∨ outBase + s.params.klen.toNat ≤ x) →
        (x < matBase ∨ matBase + 8 * (s.params.nrows.toNat * s.params.ncols.toNat * 12) ≤ x) →
        Memory.byteAt m x = Memory.byteAt s.mem x

/-- R182: DERIVE_FIXED cannot fail on a legal configuration: in every phase it completes in DONE with the six fixed
parameters, whatever the parameters were, and keeps what DERIVE keeps. -/
def Obligations.DeriveFixedNeverFails : Prop :=
  ∀ s : State, s.cfg.Legal → s.err = .none →
    ∃ (S : Sponge) (m : Memory) (k : Cursor) (d : Nat),
      exec .deriveFixed s = .next { s with
        params := ⟨32, 32, 32, s.cfg.fixedT, 4, BitVec.ofNat 64 s.cfg.fixedC⟩
        sponge := S
        mem := m
        cursor := k
        phase := .done
        draws := d
        busy := false
        engineDelay := 0 } ∧
      ∀ x, (x < outBase ∨ outBase + 32 ≤ x) → (x < matBase ∨ matBase + 8 * (4 * s.cfg.fixedC * 12) ≤ x) →
        Memory.byteAt m x = Memory.byteAt s.mem x

/-- R183: from any state without a recorded error, whatever its phase, DERIVE_FIXED gives what the host's six writes of
the fixed parameters, made in a phase that is not locked, followed by DERIVE give: every register, MAT, OUT and PHASE. -/
def Obligations.DeriveFixedEqualsDerive : Prop :=
  ∀ (s : State) (unlocked : Phase), s.cfg.Legal → s.err = .none → s.busy = false →
    (unlocked = .idle ∨ unlocked = .done) →
    let s0 : State := { s with phase := unlocked }
    let s1 := s0.hostWrite 0x050 32
    let s2 := s1.hostWrite 0x058 32
    let s3 := s2.hostWrite 0x060 32
    let s4 := s3.hostWrite 0x068 s.cfg.fixedT
    let s5 := s4.hostWrite 0x070 4
    let s6 := s5.hostWrite 0x078 (BitVec.ofNat 64 s.cfg.fixedC)
    exec .deriveFixed s = exec .derive s6

/-- R184: what DERIVE writes to OUT[0 .. KLEN-1] depends only on the profile (with ROT and IV), the six parameters and the
written bytes IN[0 .. PWDLEN+SALTLEN-1]: not on the previous S, cursors, MAT, block registers, capacities or free values;
and MAT words at and beyond R·C·12 keep their values. -/
def Obligations.DeriveIsDeterministic : Prop :=
  ∀ (s s' t t' : State) (input : List Byte), s.cfg.Legal → s'.cfg.Legal →
    s.err = .none → s'.err = .none →
    s.cfg.profile = s'.cfg.profile → s.cfg.rot = s'.cfg.rot → s.cfg.iv = s'.cfg.iv → s.params = s'.params →
    validate s.cfg s.params = none → validate s'.cfg s'.params = none →
    input.length = s.params.pwdlen.toNat + s.params.saltlen.toNat → s.holds inBase input → s'.holds inBase input →
    exec .derive s = .next t → exec .derive s' = .next t' →
    (∀ j, j < s.params.klen.toNat →
      Memory.byteAt t.mem (outBase + j) = Memory.byteAt t'.mem (outBase + j) ∧
        Memory.byteAt t.mem (outBase + j) ≠ none) ∧
    (∀ x, matBase + 8 * (s.params.nrows.toNat * s.params.ncols.toNat * 12) ≤ x →
      Memory.byteAt t.mem x = Memory.byteAt s.mem x)

/-! ### The host window (20_memory.md) -/

/-- R30, R31: ID and the six CAP_* registers read their constants whether or not a command is in progress, and a write to
one is ignored: nothing but WIGN can change, and with BUSY = 0 nothing at all. -/
def Obligations.ConstantRegisters : Prop :=
  ∀ s : State,
    s.hostRead 0x000 = 0x0000000053500001#64 ∧
    s.hostRead 0x008 = BitVec.ofNat 64 s.cfg.matWords ∧
    s.hostRead 0x010 = BitVec.ofNat 64 s.cfg.inBytes ∧
    s.hostRead 0x018 = BitVec.ofNat 64 s.cfg.outBytes ∧
    s.hostRead 0x020 = BitVec.ofNat 64 s.cfg.fixedC ∧
    s.hostRead 0x028 = s.cfg.fixedT ∧
    s.hostRead 0x030 = (if s.cfg.profile = .doc then 0 else 1) ∧
    ∀ (offset : Nat) (v : Word), offset ∈ [0x000, 0x008, 0x010, 0x018, 0x020, 0x028, 0x030] →
      (∃ w, s.hostWrite offset v = { s with wign := w }) ∧ (s.busy = false → s.hostWrite offset v = s)

/-- R28: the fields of STATUS as a host reads it while no command is in progress, its zero bits, and that a write to it is
ignored. -/
def Obligations.StatusLayout : Prop :=
  ∀ s : State, s.busy = false →
    (s.hostRead 0x048).extractLsb' 0 1 = 0 ∧
    (s.hostRead 0x048).extractLsb' 1 1 = (if s.wign then 1 else 0) ∧
    (s.hostRead 0x048).extractLsb' 2 2 = 0 ∧
    ((s.hostRead 0x048).extractLsb' 4 4).toNat = s.err.code ∧
    ((s.hostRead 0x048).extractLsb' 8 4).toNat = s.phase.code ∧
    (s.hostRead 0x048).extractLsb' 12 52 = 0 ∧
    ∀ v : Word, s.hostWrite 0x048 v = s

/-- R71(b), (c): what reads while a command is in progress still define. -/
def Obligations.BusyReads : Prop :=
  ∀ s : State, s.busy = true →
    (s.hostRead 0x048).extractLsb' 0 1 = 1 ∧
    (s.hostRead 0x048).extractLsb' 1 1 = (if s.wign then 1 else 0) ∧
    (s.hostRead 0x048).extractLsb' 2 2 = 0 ∧
    (s.hostRead 0x048).extractLsb' 12 52 = 0 ∧
    ∀ offset : Nat, target s.cfg offset ∈ [Target.cmd, .inBuf, .unmapped] ∨ (∃ k, target s.cfg offset = .blkIn k) →
      s.hostRead offset = ({ s with busy := false } : State).hostRead offset

/-- R32, R71: a write of v to CMD while BUSY = 0 latches v and sets BUSY and has no other effect at that moment (the
completion time and the draw number are the model's own); a read of CMD gives 0. -/
def Obligations.CmdRegister : Prop :=
  (∀ (s : State) (v : Word), s.busy = false → ∃ n d : Nat,
    s.hostWrite 0x040 v = { s with lcmd := v, busy := true, engineDelay := n, draws := d }) ∧
  (∀ s : State, s.hostRead 0x040 = 0)

/-- R71(a), R69: every host write while a command is in progress is ignored and sets WIGN; a parameter write in phases
1..6 likewise; R68: a write to a read-only or unmapped offset while BUSY = 0 changes nothing. That R71(a) wins over R68 while
BUSY = 1 is DEDUCED (log entry 10). -/
def Obligations.IgnoredWrites : Prop :=
  (∀ (s : State) (offset : Nat) (v : Word), s.busy = true → s.hostWrite offset v = { s with wign := true }) ∧
  (∀ (s : State) (offset : Nat) (v : Word), s.busy = false → s.phase ≠ .idle → s.phase ≠ .done →
    offset ∈ [0x050, 0x058, 0x060, 0x068, 0x070, 0x078] → s.hostWrite offset v = { s with wign := true }) ∧
  (∀ (s : State) (offset : Nat) (v : Word), s.busy = false →
    (target s.cfg offset ∈ [Target.id, .capMatWords, .capInBytes, .capOutBytes, .capFixedC, .capFixedT, .capProfile,
        .status, .outBuf, .unmapped] ∨ (∃ r, target s.cfg offset = .cursor r) ∨
      ∃ k, target s.cfg offset = .blkOut k) →
    s.hostWrite offset v = s)

/-- R63 to R66, R68: where S, BLK_IN, BLK_OUT, IN, OUT and MAT stand in the window, and that every unmapped
offset reads 0. -/
def Obligations.WindowMap : Prop :=
  ∀ s : State, s.cfg.Legal → s.busy = false →
    (∀ (i : Nat) (h : i < 16), s.hostRead (0x100 + 8 * i) = s.sponge[i]) ∧
    (∀ (k : Nat) (h : k < 12), s.hostRead (0x180 + 8 * k) = s.blkIn[k]) ∧
    (∀ (k : Nat) (h : k < 12), s.hostRead (0x200 + 8 * k) = s.blkOut[k]) ∧
    (∀ (j : Nat) (w : Word), 8 * j < s.cfg.inBytes → s.holds (0x01000000 + 8 * j) (leBytes w) →
      s.hostRead (0x01000000 + 8 * j) = w) ∧
    (∀ (j : Nat) (w : Word), 8 * j < s.cfg.outBytes → s.holds (0x02000000 + 8 * j) (leBytes w) →
      s.hostRead (0x02000000 + 8 * j) = w) ∧
    (∀ (j : Nat) (w : Word), j < s.cfg.matWords → s.holds (0x8000000000 + 8 * j) (leBytes w) →
      s.hostRead (0x8000000000 + 8 * j) = w) ∧
    (∀ offset : Nat, offset % 8 = 0 →
      (offset = 0x038 ∨ (0x0B8 ≤ offset ∧ offset < 0x100) ∨ (0x1E0 ≤ offset ∧ offset < 0x200) ∨ 0x260 ≤ offset) →
      ¬ (0x01000000 ≤ offset ∧ offset < 0x01000000 + s.cfg.inBytes) →
      ¬ (0x02000000 ≤ offset ∧ offset < 0x02000000 + s.cfg.outBytes) →
      ¬ (0x8000000000 ≤ offset ∧ offset < 0x8000000000 + 8 * s.cfg.matWords) → s.hostRead offset = 0)

/-- R25, R26: the parameter and cursor registers read at their offsets. -/
def Obligations.ParameterAndCursorReads : Prop :=
  ∀ s : State, s.busy = false →
    s.hostRead 0x050 = s.params.klen ∧ s.hostRead 0x058 = s.params.pwdlen ∧ s.hostRead 0x060 = s.params.saltlen ∧
    s.hostRead 0x068 = s.params.tcost ∧ s.hostRead 0x070 = s.params.nrows ∧ s.hostRead 0x078 = s.params.ncols ∧
    s.hostRead 0x080 = s.cursor.row ∧ s.hostRead 0x088 = s.cursor.prev ∧ s.hostRead 0x090 = s.cursor.rowa ∧
    s.hostRead 0x098 = s.cursor.step ∧ s.hostRead 0x0A0 = s.cursor.window ∧ s.hostRead 0x0A8 = s.cursor.gap ∧
    s.hostRead 0x0B0 = s.cursor.tau

/-- R73, R69, R242: an admitted host write to S, BLK_IN, IN or MAT, in every phase, or to a parameter register in IDLE or
DONE, is what a read of that offset then returns, and every other admitted offset reads as before. -/
def Obligations.WriteThenRead : Prop :=
  ∀ (s : State) (offset : Nat) (v : Word), s.cfg.Legal → s.busy = false → admitted offset 8 = true →
    ((∃ r, target s.cfg offset = .param r) → s.phase = .idle ∨ s.phase = .done) →
    ((∃ i, target s.cfg offset = .sponge i) ∨ (∃ k, target s.cfg offset = .blkIn k) ∨
      (∃ r, target s.cfg offset = .param r) ∨ target s.cfg offset = .inBuf ∨ target s.cfg offset = .mat) →
    (s.hostWrite offset v).hostRead offset = v ∧
    ∀ other : Nat, admitted other 8 = true → other ≠ offset →
      (s.hostWrite offset v).hostRead other = s.hostRead other

/-- R69: the step of a host read changes no state of the block; the model records the value and the draw. -/
def Obligations.HostReadHasNoSideEffect : Prop :=
  ∀ (s : State) (offset : Nat) (rest : List HostEvent), s.host = .read offset 8 :: rest → offset % 8 = 0 →
    offset < 2 ^ 40 → engineTurn s = false →
    ∃ n d : Nat, step s = .next
      { s with host := rest, reads := s.hostRead offset :: s.reads, engineDelay := n, draws := d }

/-- R69, R71: the step of an admitted host write is that write, after the model's own count of accesses (log entry 2). -/
def Obligations.StepMakesHostWrite : Prop :=
  ∀ (s : State) (offset : Nat) (v : Word) (rest : List HostEvent), s.host = .write offset 8 v :: rest →
    offset % 8 = 0 → offset < 2 ^ 40 → engineTurn s = false →
    step s = .next (({ s with host := rest, engineDelay := s.engineDelay - 1 } : State).hostWrite offset v)

/-! ### Reset and invariants -/

/-- R38: the control state after reset, in every configuration. -/
def Obligations.ResetControlState : Prop :=
  ∀ cfg : Config,
    let s := State.resetOf cfg
    s.cfg = cfg ∧ s.params = ⟨0, 0, 0, 0, 0, 0⟩ ∧ s.cursor = ⟨0, 0, 0, 0, 0, 0, 0⟩ ∧ s.busy = false ∧ s.wign = false ∧
      s.err = .none ∧ s.phase = .idle ∧ s.hostRead 0x048 = 0 ∧ s.hostRead 0x040 = 0

/-- R235: the reset input gives the control state of reset at once, whatever was in progress, and abandons the command in
progress. -/
def Obligations.HardwareReset : Prop :=
  ∀ (s : State) (rest : List HostEvent), s.host = .reset :: rest → engineTurn s = false →
    ∃ t : State, step s = .next t ∧ t.cfg = s.cfg ∧ t.params = ⟨0, 0, 0, 0, 0, 0⟩ ∧ t.cursor = ⟨0, 0, 0, 0, 0, 0, 0⟩ ∧
      t.busy = false ∧ t.wign = false ∧ t.err = .none ∧ t.phase = .idle ∧ t.host = rest

/-- The invariant holds after reset, in every legal configuration, the model's own among them. -/
def Obligations.ResetMeetsInvariant : Prop :=
  (∀ cfg : Config, cfg.Legal → (State.resetOf cfg).Inv) ∧ State.reset.Inv

/-- Every step keeps the invariant: legal configuration, canonical stores inside IN, OUT and MAT, parameters valid while a
derivation is in progress, and the cursor of R150, R155, R156 and R158 in each phase. -/
def Obligations.StepKeepsInvariant : Prop :=
  ∀ s t : State, s.Inv → step s = .next t → t.Inv

/-- Every step keeps the stores' canonical form and the configuration, in every state. -/
def Obligations.StepKeepsStoresCanonical : Prop :=
  ∀ s t : State, step s = .next t → (Memory.wf s.mem → Memory.wf t.mem) ∧ t.cfg = s.cfg

/-- R25, R23, R24, R33: the registers no command writes: BLK_IN by none, BLK_OUT by DUPLEX and DUPLEX_R alone, the
parameters by SRST and DERIVE_FIXED alone, IN by none, and the configuration by none. That LCMD is kept after SRST too is the
model's choice (log entry 17); R38 leaves it unspecified. -/
def Obligations.CommandsKeepRegisters : Prop :=
  ∀ (i : Instr) (s t : State), exec i s = .next t →
    t.cfg = s.cfg ∧ t.blkIn = s.blkIn ∧ t.lcmd = s.lcmd ∧ t.host = s.host ∧ t.reads = s.reads ∧
    (i ≠ .duplex → i ≠ .duplexR → t.blkOut = s.blkOut) ∧
    (i ≠ .srst → i ≠ .deriveFixed → t.params = s.params) ∧
    (i ≠ .clrerr → i ≠ .srst → t.wign = s.wign) ∧
    (∀ x, x < outBase → Memory.byteAt t.mem x = Memory.byteAt s.mem x)
end

