-- ==== Sys2Proof/Laws/Bytes.lean ====
section
/-! SUPPORT. Byte packing (R12): lengths, and that unpacking undoes packing. -/

namespace Sys2Proof.Machine

@[simp] theorem leBytes_length (w : Word) : (leBytes w).length = 8 := rfl

/-- Byte i of a word is its bits 8i+7 .. 8i (R62). -/
theorem leBytes_getElem? (w : Word) {i : Nat} (h : i < 8) : (leBytes w)[i]? = some (w.extractLsb' (8 * i) 8) := by
  interval_cases i <;> rfl

/-- `leWord` undoes `leBytes`. -/
@[simp] theorem leWord_leBytes (w : Word) : leWord (leBytes w) = w := by
  apply BitVec.eq_of_toNat_eq
  simp only [leWord, leBytes, leSum, BitVec.extractLsb'_toNat, BitVec.toNat_ofNat, Nat.shiftRight_eq_div_pow]
  omega

@[simp] theorem blockBytes_length (b : Block) : (blockBytes b).length = 96 := by simp [blockBytes]

/-- Word k of a word list stands in bytes 8k .. 8k+7. -/
theorem flatMap_leBytes_slice (ws : List Word) (k : Nat) (h : k < ws.length) :
    ((ws.flatMap leBytes).drop (8 * k)).take 8 = leBytes ws[k] := by
  induction ws generalizing k with
  | nil => simp at h
  | cons w ws ih =>
    cases k with
    | zero => simp [List.take_append]
    | succ k =>
      have hk : k < ws.length := by simpa using h
      have := ih k hk
      rw [List.flatMap_cons, List.drop_append, List.drop_of_length_le (by simp)]
      simpa [Nat.mul_add, Nat.add_sub_cancel] using this

/-- `leBlock` undoes `blockBytes`. -/
@[simp] theorem leBlock_blockBytes (b : Block) : leBlock (blockBytes b) = b := by
  refine Vector.ext fun k hk => ?_
  simp only [leBlock, blockBytes, Vector.getElem_ofFn]
  rw [flatMap_leBytes_slice _ k (by simpa using hk)]
  simp

@[simp] theorem bytesAt_length (buf : List Byte) (a n : Nat) : (bytesAt buf a n).length = n := by simp [bytesAt]

/-- The Euclidean remainder is a row number (R10). -/
theorem emod_lt (a : Int) {b : Nat} (h : 0 < b) : emod a b < b := by
  have := Int.emod_lt_of_pos a (show (0 : Int) < b by exact_mod_cast h)
  have := Int.emod_nonneg a (show (b : Int) ≠ 0 by omega)
  simp only [emod]; omega

/-- The Euclidean remainder as an integer (R10). -/
theorem emod_cast (a : Int) {b : Nat} (h : 0 < b) : (emod a b : Int) = a % b := by
  have := Int.emod_nonneg a (show (b : Int) ≠ 0 by omega)
  simp only [emod]; omega

/-- Of a natural number it is the remainder. -/
@[simp] theorem emod_natCast (a b : Nat) : emod (a : Int) b = a % b := by
  simp only [emod]; omega

end Sys2Proof.Machine
end

