-- ==== Sys2Proof/Laws/State.lean ====
section
/-! SUPPORT. What each named update of the state leaves in each field, one lemma a field: no proof need unfold a record
update. -/

namespace Sys2Proof.Machine.State

@[simp] theorem nextDraw_cfg (s : State) : s.nextDraw.cfg = s.cfg := rfl
@[simp] theorem nextDraw_sponge (s : State) : s.nextDraw.sponge = s.sponge := rfl
@[simp] theorem nextDraw_blkIn (s : State) : s.nextDraw.blkIn = s.blkIn := rfl
@[simp] theorem nextDraw_blkOut (s : State) : s.nextDraw.blkOut = s.blkOut := rfl
@[simp] theorem nextDraw_params (s : State) : s.nextDraw.params = s.params := rfl
@[simp] theorem nextDraw_cursor (s : State) : s.nextDraw.cursor = s.cursor := rfl
@[simp] theorem nextDraw_busy (s : State) : s.nextDraw.busy = s.busy := rfl
@[simp] theorem nextDraw_wign (s : State) : s.nextDraw.wign = s.wign := rfl
@[simp] theorem nextDraw_err (s : State) : s.nextDraw.err = s.err := rfl
@[simp] theorem nextDraw_phase (s : State) : s.nextDraw.phase = s.phase := rfl
@[simp] theorem nextDraw_lcmd (s : State) : s.nextDraw.lcmd = s.lcmd := rfl
@[simp] theorem nextDraw_mem (s : State) : s.nextDraw.mem = s.mem := rfl
@[simp] theorem nextDraw_engineDelay (s : State) : s.nextDraw.engineDelay = s.engineDelay := rfl
@[simp] theorem nextDraw_draws (s : State) : s.nextDraw.draws = s.draws + 1 := rfl
@[simp] theorem nextDraw_host (s : State) : s.nextDraw.host = s.host := rfl
@[simp] theorem nextDraw_reads (s : State) : s.nextDraw.reads = s.reads := rfl

@[simp] theorem setSponge_cfg (s : State) (S : Sponge) : (s.setSponge S).cfg = s.cfg := rfl
@[simp] theorem setSponge_sponge (s : State) (S : Sponge) : (s.setSponge S).sponge = S := rfl
@[simp] theorem setSponge_blkIn (s : State) (S : Sponge) : (s.setSponge S).blkIn = s.blkIn := rfl
@[simp] theorem setSponge_blkOut (s : State) (S : Sponge) : (s.setSponge S).blkOut = s.blkOut := rfl
@[simp] theorem setSponge_params (s : State) (S : Sponge) : (s.setSponge S).params = s.params := rfl
@[simp] theorem setSponge_cursor (s : State) (S : Sponge) : (s.setSponge S).cursor = s.cursor := rfl
@[simp] theorem setSponge_busy (s : State) (S : Sponge) : (s.setSponge S).busy = s.busy := rfl
@[simp] theorem setSponge_wign (s : State) (S : Sponge) : (s.setSponge S).wign = s.wign := rfl
@[simp] theorem setSponge_err (s : State) (S : Sponge) : (s.setSponge S).err = s.err := rfl
@[simp] theorem setSponge_phase (s : State) (S : Sponge) : (s.setSponge S).phase = s.phase := rfl
@[simp] theorem setSponge_lcmd (s : State) (S : Sponge) : (s.setSponge S).lcmd = s.lcmd := rfl
@[simp] theorem setSponge_mem (s : State) (S : Sponge) : (s.setSponge S).mem = s.mem := rfl
@[simp] theorem setSponge_engineDelay (s : State) (S : Sponge) : (s.setSponge S).engineDelay = s.engineDelay := rfl
@[simp] theorem setSponge_draws (s : State) (S : Sponge) : (s.setSponge S).draws = s.draws := rfl
@[simp] theorem setSponge_host (s : State) (S : Sponge) : (s.setSponge S).host = s.host := rfl
@[simp] theorem setSponge_reads (s : State) (S : Sponge) : (s.setSponge S).reads = s.reads := rfl

@[simp] theorem setBlkOut_cfg (s : State) (b : Block) : (s.setBlkOut b).cfg = s.cfg := rfl
@[simp] theorem setBlkOut_sponge (s : State) (b : Block) : (s.setBlkOut b).sponge = s.sponge := rfl
@[simp] theorem setBlkOut_blkIn (s : State) (b : Block) : (s.setBlkOut b).blkIn = s.blkIn := rfl
@[simp] theorem setBlkOut_blkOut (s : State) (b : Block) : (s.setBlkOut b).blkOut = b := rfl
@[simp] theorem setBlkOut_params (s : State) (b : Block) : (s.setBlkOut b).params = s.params := rfl
@[simp] theorem setBlkOut_cursor (s : State) (b : Block) : (s.setBlkOut b).cursor = s.cursor := rfl
@[simp] theorem setBlkOut_busy (s : State) (b : Block) : (s.setBlkOut b).busy = s.busy := rfl
@[simp] theorem setBlkOut_wign (s : State) (b : Block) : (s.setBlkOut b).wign = s.wign := rfl
@[simp] theorem setBlkOut_err (s : State) (b : Block) : (s.setBlkOut b).err = s.err := rfl
@[simp] theorem setBlkOut_phase (s : State) (b : Block) : (s.setBlkOut b).phase = s.phase := rfl
@[simp] theorem setBlkOut_lcmd (s : State) (b : Block) : (s.setBlkOut b).lcmd = s.lcmd := rfl
@[simp] theorem setBlkOut_mem (s : State) (b : Block) : (s.setBlkOut b).mem = s.mem := rfl
@[simp] theorem setBlkOut_engineDelay (s : State) (b : Block) : (s.setBlkOut b).engineDelay = s.engineDelay := rfl
@[simp] theorem setBlkOut_draws (s : State) (b : Block) : (s.setBlkOut b).draws = s.draws := rfl
@[simp] theorem setBlkOut_host (s : State) (b : Block) : (s.setBlkOut b).host = s.host := rfl
@[simp] theorem setBlkOut_reads (s : State) (b : Block) : (s.setBlkOut b).reads = s.reads := rfl

@[simp] theorem setParams_cfg (s : State) (p : Params) : (s.setParams p).cfg = s.cfg := rfl
@[simp] theorem setParams_sponge (s : State) (p : Params) : (s.setParams p).sponge = s.sponge := rfl
@[simp] theorem setParams_blkIn (s : State) (p : Params) : (s.setParams p).blkIn = s.blkIn := rfl
@[simp] theorem setParams_blkOut (s : State) (p : Params) : (s.setParams p).blkOut = s.blkOut := rfl
@[simp] theorem setParams_params (s : State) (p : Params) : (s.setParams p).params = p := rfl
@[simp] theorem setParams_cursor (s : State) (p : Params) : (s.setParams p).cursor = s.cursor := rfl
@[simp] theorem setParams_busy (s : State) (p : Params) : (s.setParams p).busy = s.busy := rfl
@[simp] theorem setParams_wign (s : State) (p : Params) : (s.setParams p).wign = s.wign := rfl
@[simp] theorem setParams_err (s : State) (p : Params) : (s.setParams p).err = s.err := rfl
@[simp] theorem setParams_phase (s : State) (p : Params) : (s.setParams p).phase = s.phase := rfl
@[simp] theorem setParams_lcmd (s : State) (p : Params) : (s.setParams p).lcmd = s.lcmd := rfl
@[simp] theorem setParams_mem (s : State) (p : Params) : (s.setParams p).mem = s.mem := rfl
@[simp] theorem setParams_engineDelay (s : State) (p : Params) : (s.setParams p).engineDelay = s.engineDelay := rfl
@[simp] theorem setParams_draws (s : State) (p : Params) : (s.setParams p).draws = s.draws := rfl
@[simp] theorem setParams_host (s : State) (p : Params) : (s.setParams p).host = s.host := rfl
@[simp] theorem setParams_reads (s : State) (p : Params) : (s.setParams p).reads = s.reads := rfl

@[simp] theorem setCursor_cfg (s : State) (c : Cursor) : (s.setCursor c).cfg = s.cfg := rfl
@[simp] theorem setCursor_sponge (s : State) (c : Cursor) : (s.setCursor c).sponge = s.sponge := rfl
@[simp] theorem setCursor_blkIn (s : State) (c : Cursor) : (s.setCursor c).blkIn = s.blkIn := rfl
@[simp] theorem setCursor_blkOut (s : State) (c : Cursor) : (s.setCursor c).blkOut = s.blkOut := rfl
@[simp] theorem setCursor_params (s : State) (c : Cursor) : (s.setCursor c).params = s.params := rfl
@[simp] theorem setCursor_cursor (s : State) (c : Cursor) : (s.setCursor c).cursor = c := rfl
@[simp] theorem setCursor_busy (s : State) (c : Cursor) : (s.setCursor c).busy = s.busy := rfl
@[simp] theorem setCursor_wign (s : State) (c : Cursor) : (s.setCursor c).wign = s.wign := rfl
@[simp] theorem setCursor_err (s : State) (c : Cursor) : (s.setCursor c).err = s.err := rfl
@[simp] theorem setCursor_phase (s : State) (c : Cursor) : (s.setCursor c).phase = s.phase := rfl
@[simp] theorem setCursor_lcmd (s : State) (c : Cursor) : (s.setCursor c).lcmd = s.lcmd := rfl
@[simp] theorem setCursor_mem (s : State) (c : Cursor) : (s.setCursor c).mem = s.mem := rfl
@[simp] theorem setCursor_engineDelay (s : State) (c : Cursor) : (s.setCursor c).engineDelay = s.engineDelay := rfl
@[simp] theorem setCursor_draws (s : State) (c : Cursor) : (s.setCursor c).draws = s.draws := rfl
@[simp] theorem setCursor_host (s : State) (c : Cursor) : (s.setCursor c).host = s.host := rfl
@[simp] theorem setCursor_reads (s : State) (c : Cursor) : (s.setCursor c).reads = s.reads := rfl

@[simp] theorem setPhase_cfg (s : State) (p : Phase) : (s.setPhase p).cfg = s.cfg := rfl
@[simp] theorem setPhase_sponge (s : State) (p : Phase) : (s.setPhase p).sponge = s.sponge := rfl
@[simp] theorem setPhase_blkIn (s : State) (p : Phase) : (s.setPhase p).blkIn = s.blkIn := rfl
@[simp] theorem setPhase_blkOut (s : State) (p : Phase) : (s.setPhase p).blkOut = s.blkOut := rfl
@[simp] theorem setPhase_params (s : State) (p : Phase) : (s.setPhase p).params = s.params := rfl
@[simp] theorem setPhase_cursor (s : State) (p : Phase) : (s.setPhase p).cursor = s.cursor := rfl
@[simp] theorem setPhase_busy (s : State) (p : Phase) : (s.setPhase p).busy = s.busy := rfl
@[simp] theorem setPhase_wign (s : State) (p : Phase) : (s.setPhase p).wign = s.wign := rfl
@[simp] theorem setPhase_err (s : State) (p : Phase) : (s.setPhase p).err = s.err := rfl
@[simp] theorem setPhase_phase (s : State) (p : Phase) : (s.setPhase p).phase = p := rfl
@[simp] theorem setPhase_lcmd (s : State) (p : Phase) : (s.setPhase p).lcmd = s.lcmd := rfl
@[simp] theorem setPhase_mem (s : State) (p : Phase) : (s.setPhase p).mem = s.mem := rfl
@[simp] theorem setPhase_engineDelay (s : State) (p : Phase) : (s.setPhase p).engineDelay = s.engineDelay := rfl
@[simp] theorem setPhase_draws (s : State) (p : Phase) : (s.setPhase p).draws = s.draws := rfl
@[simp] theorem setPhase_host (s : State) (p : Phase) : (s.setPhase p).host = s.host := rfl
@[simp] theorem setPhase_reads (s : State) (p : Phase) : (s.setPhase p).reads = s.reads := rfl

@[simp] theorem storeBytes_cfg (s : State) (a : Nat) (bs : List Byte) : (s.storeBytes a bs).cfg = s.cfg := rfl
@[simp] theorem storeBytes_sponge (s : State) (a : Nat) (bs : List Byte) : (s.storeBytes a bs).sponge = s.sponge := rfl
@[simp] theorem storeBytes_blkIn (s : State) (a : Nat) (bs : List Byte) : (s.storeBytes a bs).blkIn = s.blkIn := rfl
@[simp] theorem storeBytes_blkOut (s : State) (a : Nat) (bs : List Byte) : (s.storeBytes a bs).blkOut = s.blkOut := rfl
@[simp] theorem storeBytes_params (s : State) (a : Nat) (bs : List Byte) : (s.storeBytes a bs).params = s.params := rfl
@[simp] theorem storeBytes_cursor (s : State) (a : Nat) (bs : List Byte) : (s.storeBytes a bs).cursor = s.cursor := rfl
@[simp] theorem storeBytes_busy (s : State) (a : Nat) (bs : List Byte) : (s.storeBytes a bs).busy = s.busy := rfl
@[simp] theorem storeBytes_wign (s : State) (a : Nat) (bs : List Byte) : (s.storeBytes a bs).wign = s.wign := rfl
@[simp] theorem storeBytes_err (s : State) (a : Nat) (bs : List Byte) : (s.storeBytes a bs).err = s.err := rfl
@[simp] theorem storeBytes_phase (s : State) (a : Nat) (bs : List Byte) : (s.storeBytes a bs).phase = s.phase := rfl
@[simp] theorem storeBytes_lcmd (s : State) (a : Nat) (bs : List Byte) : (s.storeBytes a bs).lcmd = s.lcmd := rfl
@[simp] theorem storeBytes_mem (s : State) (a : Nat) (bs : List Byte) : (s.storeBytes a bs).mem = Memory.store s.mem a bs := rfl
@[simp] theorem storeBytes_engineDelay (s : State) (a : Nat) (bs : List Byte) : (s.storeBytes a bs).engineDelay = s.engineDelay := rfl
@[simp] theorem storeBytes_draws (s : State) (a : Nat) (bs : List Byte) : (s.storeBytes a bs).draws = s.draws := rfl
@[simp] theorem storeBytes_host (s : State) (a : Nat) (bs : List Byte) : (s.storeBytes a bs).host = s.host := rfl
@[simp] theorem storeBytes_reads (s : State) (a : Nat) (bs : List Byte) : (s.storeBytes a bs).reads = s.reads := rfl

@[simp] theorem raise_cfg (s : State) (code : ErrCode) : (s.raise code).cfg = s.cfg := rfl
@[simp] theorem raise_sponge (s : State) (code : ErrCode) : (s.raise code).sponge = s.sponge := rfl
@[simp] theorem raise_blkIn (s : State) (code : ErrCode) : (s.raise code).blkIn = s.blkIn := rfl
@[simp] theorem raise_blkOut (s : State) (code : ErrCode) : (s.raise code).blkOut = s.blkOut := rfl
@[simp] theorem raise_params (s : State) (code : ErrCode) : (s.raise code).params = s.params := rfl
@[simp] theorem raise_cursor (s : State) (code : ErrCode) : (s.raise code).cursor = s.cursor := rfl
@[simp] theorem raise_busy (s : State) (code : ErrCode) : (s.raise code).busy = s.busy := rfl
@[simp] theorem raise_wign (s : State) (code : ErrCode) : (s.raise code).wign = s.wign := rfl
@[simp] theorem raise_err (s : State) (code : ErrCode) : (s.raise code).err = code := rfl
@[simp] theorem raise_phase (s : State) (code : ErrCode) : (s.raise code).phase = s.phase := rfl
@[simp] theorem raise_lcmd (s : State) (code : ErrCode) : (s.raise code).lcmd = s.lcmd := rfl
@[simp] theorem raise_mem (s : State) (code : ErrCode) : (s.raise code).mem = s.mem := rfl
@[simp] theorem raise_engineDelay (s : State) (code : ErrCode) : (s.raise code).engineDelay = s.engineDelay := rfl
@[simp] theorem raise_draws (s : State) (code : ErrCode) : (s.raise code).draws = s.draws := rfl
@[simp] theorem raise_host (s : State) (code : ErrCode) : (s.raise code).host = s.host := rfl
@[simp] theorem raise_reads (s : State) (code : ErrCode) : (s.raise code).reads = s.reads := rfl

@[simp] theorem clearError_cfg (s : State) : s.clearError.cfg = s.cfg := rfl
@[simp] theorem clearError_sponge (s : State) : s.clearError.sponge = s.sponge := rfl
@[simp] theorem clearError_blkIn (s : State) : s.clearError.blkIn = s.blkIn := rfl
@[simp] theorem clearError_blkOut (s : State) : s.clearError.blkOut = s.blkOut := rfl
@[simp] theorem clearError_params (s : State) : s.clearError.params = s.params := rfl
@[simp] theorem clearError_cursor (s : State) : s.clearError.cursor = s.cursor := rfl
@[simp] theorem clearError_busy (s : State) : s.clearError.busy = s.busy := rfl
@[simp] theorem clearError_wign (s : State) : s.clearError.wign = false := rfl
@[simp] theorem clearError_err (s : State) : s.clearError.err = .none := rfl
@[simp] theorem clearError_phase (s : State) : s.clearError.phase = s.phase := rfl
@[simp] theorem clearError_lcmd (s : State) : s.clearError.lcmd = s.lcmd := rfl
@[simp] theorem clearError_mem (s : State) : s.clearError.mem = s.mem := rfl
@[simp] theorem clearError_engineDelay (s : State) : s.clearError.engineDelay = s.engineDelay := rfl
@[simp] theorem clearError_draws (s : State) : s.clearError.draws = s.draws := rfl
@[simp] theorem clearError_host (s : State) : s.clearError.host = s.host := rfl
@[simp] theorem clearError_reads (s : State) : s.clearError.reads = s.reads := rfl

@[simp] theorem softReset_cfg (s : State) : s.softReset.cfg = s.cfg := rfl
@[simp] theorem softReset_sponge (s : State) : s.softReset.sponge = s.sponge := rfl
@[simp] theorem softReset_blkIn (s : State) : s.softReset.blkIn = s.blkIn := rfl
@[simp] theorem softReset_blkOut (s : State) : s.softReset.blkOut = s.blkOut := rfl
@[simp] theorem softReset_params (s : State) : s.softReset.params = ⟨0, 0, 0, 0, 0, 0⟩ := rfl
@[simp] theorem softReset_cursor (s : State) : s.softReset.cursor = ⟨0, 0, 0, 0, 0, 0, 0⟩ := rfl
@[simp] theorem softReset_busy (s : State) : s.softReset.busy = s.busy := rfl
@[simp] theorem softReset_wign (s : State) : s.softReset.wign = false := rfl
@[simp] theorem softReset_err (s : State) : s.softReset.err = .none := rfl
@[simp] theorem softReset_phase (s : State) : s.softReset.phase = .idle := rfl
@[simp] theorem softReset_lcmd (s : State) : s.softReset.lcmd = s.lcmd := rfl
@[simp] theorem softReset_mem (s : State) : s.softReset.mem = s.mem := rfl
@[simp] theorem softReset_engineDelay (s : State) : s.softReset.engineDelay = s.engineDelay := rfl
@[simp] theorem softReset_draws (s : State) : s.softReset.draws = s.draws := rfl
@[simp] theorem softReset_host (s : State) : s.softReset.host = s.host := rfl
@[simp] theorem softReset_reads (s : State) : s.softReset.reads = s.reads := rfl

@[simp] theorem complete_cfg (s : State) : s.complete.cfg = s.cfg := rfl
@[simp] theorem complete_sponge (s : State) : s.complete.sponge = s.sponge := rfl
@[simp] theorem complete_blkIn (s : State) : s.complete.blkIn = s.blkIn := rfl
@[simp] theorem complete_blkOut (s : State) : s.complete.blkOut = s.blkOut := rfl
@[simp] theorem complete_params (s : State) : s.complete.params = s.params := rfl
@[simp] theorem complete_cursor (s : State) : s.complete.cursor = s.cursor := rfl
@[simp] theorem complete_busy (s : State) : s.complete.busy = false := rfl
@[simp] theorem complete_wign (s : State) : s.complete.wign = s.wign := rfl
@[simp] theorem complete_err (s : State) : s.complete.err = s.err := rfl
@[simp] theorem complete_phase (s : State) : s.complete.phase = s.phase := rfl
@[simp] theorem complete_lcmd (s : State) : s.complete.lcmd = s.lcmd := rfl
@[simp] theorem complete_mem (s : State) : s.complete.mem = s.mem := rfl
@[simp] theorem complete_engineDelay (s : State) : s.complete.engineDelay = 0 := rfl
@[simp] theorem complete_draws (s : State) : s.complete.draws = s.draws := rfl
@[simp] theorem complete_host (s : State) : s.complete.host = s.host := rfl
@[simp] theorem complete_reads (s : State) : s.complete.reads = s.reads := rfl

end Sys2Proof.Machine.State
end

