-- ==== Sys2Proof/Laws/Command.lean ====
section
/-! SUPPORT. What the common execution of a command can do (R212 to R214), and that every command gives a next state. -/

namespace Sys2Proof.Machine

variable {legal : Phase → Bool} {body : State → Except ErrCode State} {s t : State} {code : ErrCode}

/-- R214: suppressed. -/
theorem runCommand_suppressed (h : s.err ≠ .none) : runCommand legal body s = .next s.complete := by
  simp [runCommand, h]

/-- R208: not legal in this phase. -/
theorem runCommand_phase (h : s.err = .none) (hp : legal s.phase = false) :
    runCommand legal body s = .next (s.raise .phase).complete := by
  simp [runCommand, h, hp]

/-- The body runs. -/
theorem runCommand_ok (h : s.err = .none) (hp : legal s.phase = true) (hb : body s = .ok t) :
    runCommand legal body s = .next t.complete := by
  simp [runCommand, h, hp, hb]

/-- The body raises an error. -/
theorem runCommand_error (h : s.err = .none) (hp : legal s.phase = true) (hb : body s = .error code) :
    runCommand legal body s = .next (s.raise code).complete := by
  simp [runCommand, h, hp, hb]

/-- Everything the execution of a command can do. -/
theorem runCommand_cases (legal : Phase → Bool) (body : State → Except ErrCode State) (s : State) :
    (s.err ≠ .none ∧ runCommand legal body s = .next s.complete) ∨
    (s.err = .none ∧ legal s.phase = false ∧ runCommand legal body s = .next (s.raise .phase).complete) ∨
    (s.err = .none ∧ legal s.phase = true ∧ ∃ t, body s = .ok t ∧ runCommand legal body s = .next t.complete) ∨
    (s.err = .none ∧ legal s.phase = true ∧
      ∃ code, body s = .error code ∧ runCommand legal body s = .next (s.raise code).complete) := by
  by_cases h : s.err = .none
  · cases hp : legal s.phase with
    | false => exact .inr (.inl ⟨h, rfl, runCommand_phase h hp⟩)
    | true =>
      cases hb : body s with
      | ok t => exact .inr (.inr (.inl ⟨h, rfl, t, rfl, runCommand_ok h hp hb⟩))
      | error code => exact .inr (.inr (.inr ⟨h, rfl, code, rfl, runCommand_error h hp hb⟩))
  · exact .inl ⟨h, runCommand_suppressed h⟩

/-- The execution of a command never stops the machine. -/
theorem runCommand_next (legal : Phase → Bool) (body : State → Except ErrCode State) (s : State) :
    ∃ t, runCommand legal body s = .next t ∧ t.busy = false := by
  rcases runCommand_cases legal body s with ⟨_, h⟩ | ⟨_, _, h⟩ | ⟨_, _, t, _, h⟩ | ⟨_, _, code, _, h⟩ <;>
    exact ⟨_, h, rfl⟩

/-- Nor does the recovery of an error. -/
theorem runRecovery_next (body : State → State) (s : State) : ∃ t, runRecovery body s = .next t ∧ t.busy = false :=
  ⟨_, rfl, rfl⟩

/-- Nor does an illegal word. -/
theorem runIllegal_next (s : State) : ∃ t, runIllegal s = .next t ∧ t.busy = false := by
  by_cases h : s.err = .none
  · exact ⟨_, by simp [runIllegal, h]; rfl, rfl⟩
  · exact ⟨_, by simp [runIllegal, h]; rfl, rfl⟩

/-- Every command, in every state, gives a next state in which it has completed (R205, R246). -/
theorem exec_next (i : Instr) (s : State) : ∃ t, exec i s = .next t ∧ t.busy = false := by
  cases i
  case clrerr => exact runRecovery_next _ s
  case srst => exact runRecovery_next _ s
  all_goals
    simp only [exec, execNop, execInit, execPerm, execPermR, execAbsorb, execDuplex, execDuplexR, execSqueeze,
      execMStart, execMAbsorb, execMRow0, execMRow1, execMSetupRow, execMWanderRow, execMWrapup, execDerive,
      execDeriveFixed]
    exact runCommand_next _ _ s

/-- So does every word the engine executes. -/
theorem engineStep_next (s : State) : ∃ t, engineStep s = .next t ∧ t.busy = false := by
  unfold engineStep
  cases decode s.lcmd with
  | ok i => exact exec_next i s
  | error e => exact runIllegal_next s

end Sys2Proof.Machine
end

