-- ==== Sys2Proof/Laws/HostPort.lean ====
section
/-! SUPPORT. What each update of the host's side leaves in each field of the state, and whose turn a step is. -/

namespace Sys2Proof.Machine.State

@[simp] theorem ignoreWrite_cfg (s : State) : s.ignoreWrite.cfg = s.cfg := rfl
@[simp] theorem ignoreWrite_sponge (s : State) : s.ignoreWrite.sponge = s.sponge := rfl
@[simp] theorem ignoreWrite_blkIn (s : State) : s.ignoreWrite.blkIn = s.blkIn := rfl
@[simp] theorem ignoreWrite_blkOut (s : State) : s.ignoreWrite.blkOut = s.blkOut := rfl
@[simp] theorem ignoreWrite_params (s : State) : s.ignoreWrite.params = s.params := rfl
@[simp] theorem ignoreWrite_cursor (s : State) : s.ignoreWrite.cursor = s.cursor := rfl
@[simp] theorem ignoreWrite_busy (s : State) : s.ignoreWrite.busy = s.busy := rfl
@[simp] theorem ignoreWrite_wign (s : State) : s.ignoreWrite.wign = true := rfl
@[simp] theorem ignoreWrite_err (s : State) : s.ignoreWrite.err = s.err := rfl
@[simp] theorem ignoreWrite_phase (s : State) : s.ignoreWrite.phase = s.phase := rfl
@[simp] theorem ignoreWrite_lcmd (s : State) : s.ignoreWrite.lcmd = s.lcmd := rfl
@[simp] theorem ignoreWrite_mem (s : State) : s.ignoreWrite.mem = s.mem := rfl
@[simp] theorem ignoreWrite_engineDelay (s : State) : s.ignoreWrite.engineDelay = s.engineDelay := rfl
@[simp] theorem ignoreWrite_draws (s : State) : s.ignoreWrite.draws = s.draws := rfl
@[simp] theorem ignoreWrite_host (s : State) : s.ignoreWrite.host = s.host := rfl
@[simp] theorem ignoreWrite_reads (s : State) : s.ignoreWrite.reads = s.reads := rfl

@[simp] theorem issue_cfg (s : State) (v : Word) : (s.issue v).cfg = s.cfg := rfl
@[simp] theorem issue_sponge (s : State) (v : Word) : (s.issue v).sponge = s.sponge := rfl
@[simp] theorem issue_blkIn (s : State) (v : Word) : (s.issue v).blkIn = s.blkIn := rfl
@[simp] theorem issue_blkOut (s : State) (v : Word) : (s.issue v).blkOut = s.blkOut := rfl
@[simp] theorem issue_params (s : State) (v : Word) : (s.issue v).params = s.params := rfl
@[simp] theorem issue_cursor (s : State) (v : Word) : (s.issue v).cursor = s.cursor := rfl
@[simp] theorem issue_busy (s : State) (v : Word) : (s.issue v).busy = true := rfl
@[simp] theorem issue_wign (s : State) (v : Word) : (s.issue v).wign = s.wign := rfl
@[simp] theorem issue_err (s : State) (v : Word) : (s.issue v).err = s.err := rfl
@[simp] theorem issue_phase (s : State) (v : Word) : (s.issue v).phase = s.phase := rfl
@[simp] theorem issue_lcmd (s : State) (v : Word) : (s.issue v).lcmd = v := rfl
@[simp] theorem issue_mem (s : State) (v : Word) : (s.issue v).mem = s.mem := rfl
@[simp] theorem issue_engineDelay (s : State) (v : Word) : (s.issue v).engineDelay = Config.latency s.draws := rfl
@[simp] theorem issue_draws (s : State) (v : Word) : (s.issue v).draws = s.draws + 1 := rfl
@[simp] theorem issue_host (s : State) (v : Word) : (s.issue v).host = s.host := rfl
@[simp] theorem issue_reads (s : State) (v : Word) : (s.issue v).reads = s.reads := rfl

@[simp] theorem hostSetSponge_cfg (s : State) (i : Fin 16) (v : Word) : (s.hostSetSponge i v).cfg = s.cfg := rfl
@[simp] theorem hostSetSponge_sponge (s : State) (i : Fin 16) (v : Word) : (s.hostSetSponge i v).sponge = s.sponge.set i v := rfl
@[simp] theorem hostSetSponge_blkIn (s : State) (i : Fin 16) (v : Word) : (s.hostSetSponge i v).blkIn = s.blkIn := rfl
@[simp] theorem hostSetSponge_blkOut (s : State) (i : Fin 16) (v : Word) : (s.hostSetSponge i v).blkOut = s.blkOut := rfl
@[simp] theorem hostSetSponge_params (s : State) (i : Fin 16) (v : Word) : (s.hostSetSponge i v).params = s.params := rfl
@[simp] theorem hostSetSponge_cursor (s : State) (i : Fin 16) (v : Word) : (s.hostSetSponge i v).cursor = s.cursor := rfl
@[simp] theorem hostSetSponge_busy (s : State) (i : Fin 16) (v : Word) : (s.hostSetSponge i v).busy = s.busy := rfl
@[simp] theorem hostSetSponge_wign (s : State) (i : Fin 16) (v : Word) : (s.hostSetSponge i v).wign = s.wign := rfl
@[simp] theorem hostSetSponge_err (s : State) (i : Fin 16) (v : Word) : (s.hostSetSponge i v).err = s.err := rfl
@[simp] theorem hostSetSponge_phase (s : State) (i : Fin 16) (v : Word) : (s.hostSetSponge i v).phase = s.phase := rfl
@[simp] theorem hostSetSponge_lcmd (s : State) (i : Fin 16) (v : Word) : (s.hostSetSponge i v).lcmd = s.lcmd := rfl
@[simp] theorem hostSetSponge_mem (s : State) (i : Fin 16) (v : Word) : (s.hostSetSponge i v).mem = s.mem := rfl
@[simp] theorem hostSetSponge_engineDelay (s : State) (i : Fin 16) (v : Word) : (s.hostSetSponge i v).engineDelay = s.engineDelay := rfl
@[simp] theorem hostSetSponge_draws (s : State) (i : Fin 16) (v : Word) : (s.hostSetSponge i v).draws = s.draws := rfl
@[simp] theorem hostSetSponge_host (s : State) (i : Fin 16) (v : Word) : (s.hostSetSponge i v).host = s.host := rfl
@[simp] theorem hostSetSponge_reads (s : State) (i : Fin 16) (v : Word) : (s.hostSetSponge i v).reads = s.reads := rfl

@[simp] theorem hostSetBlkIn_cfg (s : State) (k : Fin 12) (v : Word) : (s.hostSetBlkIn k v).cfg = s.cfg := rfl
@[simp] theorem hostSetBlkIn_sponge (s : State) (k : Fin 12) (v : Word) : (s.hostSetBlkIn k v).sponge = s.sponge := rfl
@[simp] theorem hostSetBlkIn_blkIn (s : State) (k : Fin 12) (v : Word) : (s.hostSetBlkIn k v).blkIn = s.blkIn.set k v := rfl
@[simp] theorem hostSetBlkIn_blkOut (s : State) (k : Fin 12) (v : Word) : (s.hostSetBlkIn k v).blkOut = s.blkOut := rfl
@[simp] theorem hostSetBlkIn_params (s : State) (k : Fin 12) (v : Word) : (s.hostSetBlkIn k v).params = s.params := rfl
@[simp] theorem hostSetBlkIn_cursor (s : State) (k : Fin 12) (v : Word) : (s.hostSetBlkIn k v).cursor = s.cursor := rfl
@[simp] theorem hostSetBlkIn_busy (s : State) (k : Fin 12) (v : Word) : (s.hostSetBlkIn k v).busy = s.busy := rfl
@[simp] theorem hostSetBlkIn_wign (s : State) (k : Fin 12) (v : Word) : (s.hostSetBlkIn k v).wign = s.wign := rfl
@[simp] theorem hostSetBlkIn_err (s : State) (k : Fin 12) (v : Word) : (s.hostSetBlkIn k v).err = s.err := rfl
@[simp] theorem hostSetBlkIn_phase (s : State) (k : Fin 12) (v : Word) : (s.hostSetBlkIn k v).phase = s.phase := rfl
@[simp] theorem hostSetBlkIn_lcmd (s : State) (k : Fin 12) (v : Word) : (s.hostSetBlkIn k v).lcmd = s.lcmd := rfl
@[simp] theorem hostSetBlkIn_mem (s : State) (k : Fin 12) (v : Word) : (s.hostSetBlkIn k v).mem = s.mem := rfl
@[simp] theorem hostSetBlkIn_engineDelay (s : State) (k : Fin 12) (v : Word) : (s.hostSetBlkIn k v).engineDelay = s.engineDelay := rfl
@[simp] theorem hostSetBlkIn_draws (s : State) (k : Fin 12) (v : Word) : (s.hostSetBlkIn k v).draws = s.draws := rfl
@[simp] theorem hostSetBlkIn_host (s : State) (k : Fin 12) (v : Word) : (s.hostSetBlkIn k v).host = s.host := rfl
@[simp] theorem hostSetBlkIn_reads (s : State) (k : Fin 12) (v : Word) : (s.hostSetBlkIn k v).reads = s.reads := rfl

@[simp] theorem tick_cfg (s : State) : s.tick.cfg = s.cfg := rfl
@[simp] theorem tick_sponge (s : State) : s.tick.sponge = s.sponge := rfl
@[simp] theorem tick_blkIn (s : State) : s.tick.blkIn = s.blkIn := rfl
@[simp] theorem tick_blkOut (s : State) : s.tick.blkOut = s.blkOut := rfl
@[simp] theorem tick_params (s : State) : s.tick.params = s.params := rfl
@[simp] theorem tick_cursor (s : State) : s.tick.cursor = s.cursor := rfl
@[simp] theorem tick_busy (s : State) : s.tick.busy = s.busy := rfl
@[simp] theorem tick_wign (s : State) : s.tick.wign = s.wign := rfl
@[simp] theorem tick_err (s : State) : s.tick.err = s.err := rfl
@[simp] theorem tick_phase (s : State) : s.tick.phase = s.phase := rfl
@[simp] theorem tick_lcmd (s : State) : s.tick.lcmd = s.lcmd := rfl
@[simp] theorem tick_mem (s : State) : s.tick.mem = s.mem := rfl
@[simp] theorem tick_engineDelay (s : State) : s.tick.engineDelay = s.engineDelay - 1 := rfl
@[simp] theorem tick_draws (s : State) : s.tick.draws = s.draws := rfl
@[simp] theorem tick_host (s : State) : s.tick.host = s.host := rfl
@[simp] theorem tick_reads (s : State) : s.tick.reads = s.reads := rfl

@[simp] theorem recordRead_cfg (s : State) (v : Word) : (s.recordRead v).cfg = s.cfg := rfl
@[simp] theorem recordRead_sponge (s : State) (v : Word) : (s.recordRead v).sponge = s.sponge := rfl
@[simp] theorem recordRead_blkIn (s : State) (v : Word) : (s.recordRead v).blkIn = s.blkIn := rfl
@[simp] theorem recordRead_blkOut (s : State) (v : Word) : (s.recordRead v).blkOut = s.blkOut := rfl
@[simp] theorem recordRead_params (s : State) (v : Word) : (s.recordRead v).params = s.params := rfl
@[simp] theorem recordRead_cursor (s : State) (v : Word) : (s.recordRead v).cursor = s.cursor := rfl
@[simp] theorem recordRead_busy (s : State) (v : Word) : (s.recordRead v).busy = s.busy := rfl
@[simp] theorem recordRead_wign (s : State) (v : Word) : (s.recordRead v).wign = s.wign := rfl
@[simp] theorem recordRead_err (s : State) (v : Word) : (s.recordRead v).err = s.err := rfl
@[simp] theorem recordRead_phase (s : State) (v : Word) : (s.recordRead v).phase = s.phase := rfl
@[simp] theorem recordRead_lcmd (s : State) (v : Word) : (s.recordRead v).lcmd = s.lcmd := rfl
@[simp] theorem recordRead_mem (s : State) (v : Word) : (s.recordRead v).mem = s.mem := rfl
@[simp] theorem recordRead_engineDelay (s : State) (v : Word) : (s.recordRead v).engineDelay = s.engineDelay := rfl
@[simp] theorem recordRead_draws (s : State) (v : Word) : (s.recordRead v).draws = s.draws + 1 := rfl
@[simp] theorem recordRead_host (s : State) (v : Word) : (s.recordRead v).host = s.host := rfl
@[simp] theorem recordRead_reads (s : State) (v : Word) : (s.recordRead v).reads = v :: s.reads := rfl

@[simp] theorem hardReset_cfg (s : State) : s.hardReset.cfg = s.cfg := rfl
@[simp] theorem hardReset_sponge (s : State) : s.hardReset.sponge = freeWords 16 s.draws := rfl
@[simp] theorem hardReset_blkIn (s : State) : s.hardReset.blkIn = freeWords 12 (s.draws + 16) := rfl
@[simp] theorem hardReset_blkOut (s : State) : s.hardReset.blkOut = freeWords 12 (s.draws + 28) := rfl
@[simp] theorem hardReset_params (s : State) : s.hardReset.params = ⟨0, 0, 0, 0, 0, 0⟩ := rfl
@[simp] theorem hardReset_cursor (s : State) : s.hardReset.cursor = ⟨0, 0, 0, 0, 0, 0, 0⟩ := rfl
@[simp] theorem hardReset_busy (s : State) : s.hardReset.busy = false := rfl
@[simp] theorem hardReset_wign (s : State) : s.hardReset.wign = false := rfl
@[simp] theorem hardReset_err (s : State) : s.hardReset.err = .none := rfl
@[simp] theorem hardReset_phase (s : State) : s.hardReset.phase = .idle := rfl
@[simp] theorem hardReset_lcmd (s : State) : s.hardReset.lcmd = Config.freeWord (s.draws + 40) := rfl
@[simp] theorem hardReset_mem (s : State) : s.hardReset.mem = [] := rfl
@[simp] theorem hardReset_engineDelay (s : State) : s.hardReset.engineDelay = 0 := rfl
@[simp] theorem hardReset_draws (s : State) : s.hardReset.draws = s.draws + 41 := rfl
@[simp] theorem hardReset_host (s : State) : s.hardReset.host = s.host := rfl
@[simp] theorem hardReset_reads (s : State) : s.hardReset.reads = s.reads := rfl

@[simp] theorem withCommand_cfg (s : State) (v : Word) : (s.withCommand v).cfg = s.cfg := rfl
@[simp] theorem withCommand_sponge (s : State) (v : Word) : (s.withCommand v).sponge = s.sponge := rfl
@[simp] theorem withCommand_blkIn (s : State) (v : Word) : (s.withCommand v).blkIn = s.blkIn := rfl
@[simp] theorem withCommand_blkOut (s : State) (v : Word) : (s.withCommand v).blkOut = s.blkOut := rfl
@[simp] theorem withCommand_params (s : State) (v : Word) : (s.withCommand v).params = s.params := rfl
@[simp] theorem withCommand_cursor (s : State) (v : Word) : (s.withCommand v).cursor = s.cursor := rfl
@[simp] theorem withCommand_busy (s : State) (v : Word) : (s.withCommand v).busy = true := rfl
@[simp] theorem withCommand_wign (s : State) (v : Word) : (s.withCommand v).wign = s.wign := rfl
@[simp] theorem withCommand_err (s : State) (v : Word) : (s.withCommand v).err = s.err := rfl
@[simp] theorem withCommand_phase (s : State) (v : Word) : (s.withCommand v).phase = s.phase := rfl
@[simp] theorem withCommand_lcmd (s : State) (v : Word) : (s.withCommand v).lcmd = v := rfl
@[simp] theorem withCommand_mem (s : State) (v : Word) : (s.withCommand v).mem = s.mem := rfl
@[simp] theorem withCommand_engineDelay (s : State) (v : Word) : (s.withCommand v).engineDelay = 0 := rfl
@[simp] theorem withCommand_draws (s : State) (v : Word) : (s.withCommand v).draws = s.draws := rfl
@[simp] theorem withCommand_host (s : State) (v : Word) : (s.withCommand v).host = s.host := rfl
@[simp] theorem withCommand_reads (s : State) (v : Word) : (s.withCommand v).reads = s.reads := rfl

end Sys2Proof.Machine.State

namespace Sys2Proof.Machine

/-- The step of a state whose command's time has come is the engine's. -/
theorem step_of_engineTurn {s : State} (h : engineTurn s = true) : step s = engineStep s := by
  simp [step, h]

/-- Every other step is the host's. -/
theorem step_of_hostTurn {s : State} (h : engineTurn s = false) : step s = hostStep s := by
  simp [step, h]

/-- With no command in progress the step is the host's. -/
theorem engineTurn_of_idle {s : State} (h : s.busy = false) : engineTurn s = false := by
  simp [engineTurn, h]

/-- A command issued and due has its turn, whatever the host would do next. -/
theorem engineTurn_withCommand (s : State) (v : Word) : engineTurn (s.withCommand v) = true := by
  simp [engineTurn]

/-- An access is admitted exactly when R61 says so. -/
theorem admitted_iff (offset width : Nat) :
    admitted offset width = true ↔ width = 8 ∧ offset % 8 = 0 ∧ offset < 2 ^ 40 := by
  simp [admitted, and_assoc]

end Sys2Proof.Machine
end

