-- ==== Sys2Proof/Laws/Memory.lean ====
section
/-! SUPPORT. The stores: what a write leaves at each offset, that it keeps the canonical form, and what a read gives. -/

namespace Sys2Proof.Machine

/-- A list of cells joined to another reads the first where it has the offset. -/
theorem byteAt_append (m m' : Memory) (a : Nat) :
    Memory.byteAt (m ++ m') a = (Memory.byteAt m a).or (Memory.byteAt m' a) := by
  induction m with
  | nil => simp [Memory.byteAt]
  | cons c m ih =>
    obtain ⟨k, v⟩ := c
    by_cases h : k = a <;> simp [Memory.byteAt, h, ih]

/-- Keeping a set of offsets keeps what stands at them and drops everything else. -/
theorem byteAt_filter (m : Memory) (p : Nat → Bool) (a : Nat) :
    Memory.byteAt (m.filter fun c => p c.1) a = if p a then Memory.byteAt m a else none := by
  induction m with
  | nil => simp [Memory.byteAt]
  | cons c m ih =>
    obtain ⟨k, v⟩ := c
    by_cases hp : p k <;> by_cases h : k = a <;> simp_all [Memory.byteAt]

/-- What consecutive cells hold. -/
theorem byteAt_cellsFrom (bs : List Byte) (a x : Nat) :
    Memory.byteAt (cellsFrom a bs) x = if a ≤ x then bs[x - a]? else none := by
  induction bs generalizing a with
  | nil => simp [cellsFrom, Memory.byteAt]
  | cons b bs ih =>
    simp only [cellsFrom, Memory.byteAt, ih]
    by_cases h : a = x
    · simp [h]
    · by_cases h' : a ≤ x
      · have : x - a = (x - (a + 1)) + 1 := by omega
        simp [h, h', show a + 1 ≤ x by omega, this]
      · simp [h, h', show ¬ a + 1 ≤ x by omega]

/-- A write, at every offset: the bytes written inside its range, what stood there before outside it. -/
theorem byteAt_store (m : Memory) (a : Nat) (bs : List Byte) (x : Nat) :
    Memory.byteAt (Memory.store m a bs) x =
      if a ≤ x ∧ x < a + bs.length then bs[x - a]? else Memory.byteAt m x := by
  simp only [Memory.store, byteAt_append]
  rw [byteAt_filter m (fun k => k < a), byteAt_filter m (fun k => a + bs.length ≤ k), byteAt_cellsFrom]
  by_cases h1 : x < a
  · simp [h1, show ¬ a ≤ x by omega, show ¬ a + bs.length ≤ x by omega]
  · by_cases h2 : x < a + bs.length
    · have : x - a < bs.length := by omega
      simp [h1, h2, show a ≤ x by omega, this]
    · have : bs.length ≤ x - a := by omega
      simp [h1, h2, show a ≤ x by omega, show a + bs.length ≤ x by omega, List.getElem?_eq_none this]

/-- A read after a write inside its range. -/
theorem byteAt_store_inside (m : Memory) (a : Nat) (bs : List Byte) {j : Nat} (h : j < bs.length) :
    Memory.byteAt (Memory.store m a bs) (a + j) = bs[j]? := by
  rw [byteAt_store, if_pos ⟨by omega, by omega⟩, Nat.add_sub_cancel_left]

/-- A write leaves every other offset alone. -/
theorem byteAt_store_outside (m : Memory) (a : Nat) (bs : List Byte) {x : Nat} (h : x < a ∨ a + bs.length ≤ x) :
    Memory.byteAt (Memory.store m a bs) x = Memory.byteAt m x := by
  rw [byteAt_store, if_neg (by omega)]

/-- The offsets of consecutive cells. -/
theorem mem_cellsFrom {bs : List Byte} {a : Nat} {c : Host.Cell} (h : c ∈ cellsFrom a bs) :
    a ≤ c.1 ∧ c.1 < a + bs.length := by
  induction bs generalizing a with
  | nil => simp [cellsFrom] at h
  | cons b bs ih =>
    simp only [cellsFrom, List.mem_cons] at h
    rcases h with rfl | h
    · simp
    · have := ih h
      simp only [List.length_cons]; omega

/-- The offsets a write lists: old ones, and those of its range. -/
theorem mem_store {m : Memory} {a : Nat} {bs : List Byte} {c : Host.Cell} (h : c ∈ Memory.store m a bs) :
    c ∈ m ∨ (a ≤ c.1 ∧ c.1 < a + bs.length) := by
  simp only [Memory.store, List.mem_append, List.mem_filter] at h
  rcases h with (h | h) | h
  · exact .inl h.1
  · exact .inr (mem_cellsFrom h)
  · exact .inl h.1

theorem wf_cellsFrom (bs : List Byte) (a : Nat) : Memory.wf (cellsFrom a bs) := by
  induction bs generalizing a with
  | nil => exact List.Pairwise.nil
  | cons b bs ih =>
    refine List.Pairwise.cons (fun c hc => ?_) (ih (a + 1))
    have := mem_cellsFrom hc
    simp only; omega

/-- A write keeps the canonical form. -/
theorem wf_store {m : Memory} (h : Memory.wf m) (a : Nat) (bs : List Byte) : Memory.wf (Memory.store m a bs) := by
  refine List.pairwise_append.2 ⟨List.pairwise_append.2 ⟨h.filter _, wf_cellsFrom bs a, ?_⟩, h.filter _, ?_⟩
  · intro x hx y hy
    have hx := (List.mem_filter.1 hx).2
    have := mem_cellsFrom hy
    simp only [decide_eq_true_eq] at hx
    omega
  · intro x hx y hy
    have hy := (List.mem_filter.1 hy).2
    simp only [decide_eq_true_eq] at hy
    rcases List.mem_append.1 hx with hx | hx
    · have hx := (List.mem_filter.1 hx).2
      simp only [decide_eq_true_eq] at hx
      omega
    · have := mem_cellsFrom hx
      omega

/-- Nothing listed is canonical (the stores right after reset). -/
theorem wf_nil : Memory.wf [] := List.Pairwise.nil

@[simp] theorem load_length (m : Memory) (d a n : Nat) : (Memory.load m d a n).length = n := by simp [Memory.load]

/-- A read, byte by byte. -/
theorem load_getElem? (m : Memory) (d a n : Nat) {j : Nat} (h : j < n) :
    (Memory.load m d a n)[j]? = some (Memory.readByte m d (a + j)) := by
  simp only [Memory.load, Memory.readByte, Memory.slice]
  rw [List.getElem?_map, List.getElem?_range' h]
  have := byteAt_filter m (fun k => decide (a ≤ k) && decide (k < a + n)) (a + j)
  simp only [Option.map_some, Nat.one_mul, this]
  simp [h]

/-- A read of a range that is all written gives what was written, whatever the free values are. -/
theorem load_of_written {m : Memory} {a : Nat} {bs : List Byte}
    (h : ∀ j, j < bs.length → Memory.byteAt m (a + j) = bs[j]?) (d : Nat) : Memory.load m d a bs.length = bs := by
  apply List.ext_getElem?
  intro j
  by_cases hj : j < bs.length
  · rw [load_getElem? _ _ _ _ hj, Memory.readByte, h j hj, List.getElem?_eq_getElem hj]
    rfl
  · rw [List.getElem?_eq_none (by simpa using hj), List.getElem?_eq_none (by omega)]

/-- A read after a write of the same range. -/
@[simp] theorem load_store (m : Memory) (d a : Nat) (bs : List Byte) :
    Memory.load (Memory.store m a bs) d a bs.length = bs :=
  load_of_written (fun _ hj => byteAt_store_inside m a bs hj) d

/-- A read of a range a write does not touch. -/
theorem load_store_outside (m : Memory) (d a n a' : Nat) (bs : List Byte) (h : a + n ≤ a' ∨ a' + bs.length ≤ a) :
    Memory.load (Memory.store m a' bs) d a n = Memory.load m d a n := by
  apply List.ext_getElem?
  intro j
  by_cases hj : j < n
  · rw [load_getElem? _ _ _ _ hj, load_getElem? _ _ _ _ hj, Memory.readByte, Memory.readByte,
      byteAt_store_outside _ _ _ (by omega)]
  · rw [List.getElem?_eq_none (by simpa using hj), List.getElem?_eq_none (by simpa using hj)]

end Sys2Proof.Machine
end

