-- ==== Sys2Proof/Laws/Matrix.lean ====
section
/-! SUPPORT. The matrix cells (R67): where they stand, that they do not overlap, what reading and writing one does; and
what each piece of a phase command leaves unchanged. -/

namespace Sys2Proof.Machine

/-- Cells of a row stand 96 bytes apart. -/
theorem cellAddr_col (s : State) (r c : Nat) : s.cellAddr r c = s.cellAddr r 0 + 96 * c := by
  simp only [State.cellAddr]; ring

/-- Rows stand 96·C bytes apart. -/
theorem cellAddr_row (s : State) (r : Nat) : s.cellAddr r 0 = matBase + 96 * s.params.ncols.toNat * r := by
  simp only [State.cellAddr]; ring

/-- A cell lies inside its row. -/
theorem cellAddr_in_row (s : State) (r : Nat) {c : Nat} (h : c < s.params.ncols.toNat) :
    s.cellAddr r 0 ≤ s.cellAddr r c ∧ s.cellAddr r c + 96 ≤ s.cellAddr r 0 + 96 * s.params.ncols.toNat := by
  have := cellAddr_col s r c
  omega

/-- Two different cells of the matrix share no byte. -/
theorem cellAddr_disjoint (s : State) {r c r' c' : Nat} (hc : c < s.params.ncols.toNat)
    (hc' : c' < s.params.ncols.toNat) (h : r ≠ r' ∨ c ≠ c') :
    s.cellAddr r c + 96 ≤ s.cellAddr r' c' ∨ s.cellAddr r' c' + 96 ≤ s.cellAddr r c := by
  rw [cellAddr_col s r c, cellAddr_col s r' c', cellAddr_row, cellAddr_row]
  generalize s.params.ncols.toNat = C at *
  rcases Nat.lt_trichotomy r r' with hr | hr | hr
  · obtain ⟨k, rfl⟩ := Nat.exists_eq_add_of_lt hr
    have : 96 * C * (r + k + 1) = 96 * C * r + 96 * C * k + 96 * C := by ring
    omega
  · subst hr
    omega
  · obtain ⟨k, rfl⟩ := Nat.exists_eq_add_of_lt hr
    have : 96 * C * (r' + k + 1) = 96 * C * r' + 96 * C * k + 96 * C := by ring
    omega

/-- A cell address depends on NCOLS alone. -/
theorem cellAddr_congr {s t : State} (h : t.params = s.params) (r c : Nat) : t.cellAddr r c = s.cellAddr r c := by
  simp [State.cellAddr, h]

/-- Reading a cell that holds a written block gives the block, whatever the free values are. -/
theorem readCell_of_cellHolds {s : State} {r c : Nat} {b : Block} (h : s.cellHolds r c b) : s.readCell r c = b := by
  have := load_of_written h s.draws
  rw [blockBytes_length] at this
  simp [State.readCell, State.loadBytes, this]

/-- A cell written holds what was written. -/
theorem writeCell_cellHolds (s : State) (r c : Nat) (b : Block) : (s.writeCell r c b).cellHolds r c b :=
  fun _ hj => byteAt_store_inside _ _ _ hj

/-- A cell write leaves the other cells alone. -/
theorem writeCell_keeps_cell {s : State} {r c r' c' : Nat} {b b' : Block} (hc : c < s.params.ncols.toNat)
    (hc' : c' < s.params.ncols.toNat) (h : r ≠ r' ∨ c ≠ c') (hold : s.cellHolds r' c' b') :
    (s.writeCell r c b).cellHolds r' c' b' := by
  intro j hj
  have hd := cellAddr_disjoint s hc hc' h
  simp only [blockBytes_length] at hj
  have : Memory.byteAt (s.writeCell r c b).mem (s.cellAddr r' c' + j) = Memory.byteAt s.mem (s.cellAddr r' c' + j) :=
    byteAt_store_outside _ _ _ (by simp only [blockBytes_length]; omega)
  exact this.trans (hold j (by simpa using hj))

/-- A cell write leaves every byte outside the cell alone. -/
theorem writeCell_outside (s : State) (r c : Nat) (b : Block) : sameOutside s.mem (s.writeCell r c b).mem
    (s.cellAddr r c) 96 :=
  fun _ hx => byteAt_store_outside _ _ _ (by simpa using hx)

/-- What a cell holds depends on the stores and NCOLS alone. -/
theorem cellHolds_congr {s t : State} {r c : Nat} {b : Block} (hp : t.params = s.params) (hm : t.mem = s.mem)
    (h : s.cellHolds r c b) : t.cellHolds r c b := by
  simpa [State.cellHolds, State.holds, cellAddr_congr hp, hm] using h

/-- `t` differs from `s` in S, the stores and the draw number alone: what the columns of a row can change. -/
def dataFrame (s t : State) : Prop :=
  ∃ (S : Sponge) (m : Memory) (d : Nat), t = { s with sponge := S, mem := m, draws := d }

theorem dataFrame_refl (s : State) : dataFrame s s := ⟨s.sponge, s.mem, s.draws, rfl⟩

theorem dataFrame_trans {s t u : State} (h : dataFrame s t) (h' : dataFrame t u) : dataFrame s u := by
  obtain ⟨_, _, _, rfl⟩ := h
  obtain ⟨S, m, d, rfl⟩ := h'
  exact ⟨S, m, d, rfl⟩

/-- A run of columns changes what each column can. -/
theorem dataFrame_foldl {f : State → Nat → State} (hf : ∀ s c, dataFrame s (f s c)) (l : List Nat) (s : State) :
    dataFrame s (l.foldl f s) := by
  induction l generalizing s with
  | nil => exact dataFrame_refl s
  | cons c l ih => exact dataFrame_trans (hf s c) (ih (f s c))

theorem dataFrame_setSponge (s : State) (S : Sponge) : dataFrame s (s.setSponge S) := ⟨S, s.mem, s.draws, rfl⟩

theorem dataFrame_nextDraw (s : State) : dataFrame s s.nextDraw := ⟨s.sponge, s.mem, s.draws + 1, rfl⟩

theorem dataFrame_storeBytes (s : State) (a : Nat) (bs : List Byte) : dataFrame s (s.storeBytes a bs) :=
  ⟨s.sponge, Memory.store s.mem a bs, s.draws, rfl⟩

theorem dataFrame_writeCell (s : State) (r c : Nat) (b : Block) : dataFrame s (s.writeCell r c b) :=
  dataFrame_storeBytes s _ _

theorem dataFrame_xorCell (s : State) (r c : Nat) (b : Block) : dataFrame s (s.xorCell r c b) :=
  dataFrame_trans (dataFrame_writeCell s _ _ _) (dataFrame_nextDraw _)

theorem dataFrame_squeezeToOut (s : State) (n : Nat) : dataFrame s (s.squeezeToOut n) :=
  dataFrame_trans (dataFrame_setSponge s _) (dataFrame_storeBytes _ _ _)

theorem dataFrame_duplexRows (s : State) (prev rowa c : Nat) : dataFrame s (duplexRows s prev rowa c).1 :=
  dataFrame_trans (dataFrame_nextDraw s) (dataFrame_trans (dataFrame_nextDraw _) (dataFrame_setSponge _ _))

theorem row0Column_frame (s : State) (i : Nat) : dataFrame s (row0Column s i) :=
  dataFrame_trans (dataFrame_writeCell s _ _ _) (dataFrame_setSponge _ _)

theorem row1Column_frame (s : State) (c : Nat) : dataFrame s (row1Column s c) :=
  dataFrame_trans (dataFrame_nextDraw s) (dataFrame_trans (dataFrame_setSponge _ _) (dataFrame_writeCell _ _ _ _))

theorem setupColumn_frame (row prev rowa : Nat) (s : State) (c : Nat) :
    dataFrame s (setupColumn row prev rowa s c) :=
  dataFrame_trans (dataFrame_duplexRows s prev rowa c)
    (dataFrame_trans (dataFrame_writeCell _ _ _ _) (dataFrame_xorCell _ _ _ _))

theorem wanderColumn_frame (row prev rowa : Nat) (s : State) (c : Nat) :
    dataFrame s (wanderColumn row prev rowa s c) :=
  dataFrame_trans (dataFrame_duplexRows s prev rowa c)
    (dataFrame_trans (dataFrame_xorCell _ _ _ _) (dataFrame_xorCell _ _ _ _))

/-- R144: EnterWandering writes PHASE and, when there is a pass to run, TAU, ROW and STEP. -/
theorem enterWandering_eq (s : State) :
    enterWandering s =
      { s with phase := (afterEnterWandering s.params s.cursor).1, cursor := (afterEnterWandering s.params s.cursor).2 } := by
  unfold enterWandering afterEnterWandering
  split <;> rfl

/-- `t` differs from `s` in S, the stores, the draw number, PHASE and the cursors alone: what a phase command can
change. -/
def phaseFrame (s t : State) : Prop :=
  ∃ (S : Sponge) (m : Memory) (d : Nat) (p : Phase) (k : Cursor),
    t = { s with sponge := S, mem := m, draws := d, phase := p, cursor := k }

theorem phaseFrame_trans {s t u : State} (h : phaseFrame s t) (h' : phaseFrame t u) : phaseFrame s u := by
  obtain ⟨_, _, _, _, _, rfl⟩ := h
  obtain ⟨S, m, d, p, k, rfl⟩ := h'
  exact ⟨S, m, d, p, k, rfl⟩

theorem phaseFrame_refl (s : State) : phaseFrame s s := ⟨s.sponge, s.mem, s.draws, s.phase, s.cursor, rfl⟩

theorem phaseFrame_of_dataFrame {s t : State} (h : dataFrame s t) : phaseFrame s t := by
  obtain ⟨S, m, d, rfl⟩ := h
  exact ⟨S, m, d, s.phase, s.cursor, rfl⟩

theorem phaseFrame_setPhase (s : State) (p : Phase) : phaseFrame s (s.setPhase p) :=
  ⟨s.sponge, s.mem, s.draws, p, s.cursor, rfl⟩

theorem phaseFrame_setCursor (s : State) (k : Cursor) : phaseFrame s (s.setCursor k) :=
  ⟨s.sponge, s.mem, s.draws, s.phase, k, rfl⟩

theorem phaseFrame_enterWandering (s : State) : phaseFrame s (enterWandering s) := by
  rw [enterWandering_eq]
  exact ⟨s.sponge, s.mem, s.draws, _, _, rfl⟩

theorem startBody_frame (s : State) : phaseFrame s (startBody s) :=
  phaseFrame_trans (phaseFrame_of_dataFrame (dataFrame_setSponge s _))
    (phaseFrame_trans (phaseFrame_setCursor _ _) (phaseFrame_setPhase _ _))

theorem absorbBody_frame (s : State) : phaseFrame s (absorbBody s) :=
  phaseFrame_trans (phaseFrame_of_dataFrame (dataFrame_trans (dataFrame_nextDraw s) (dataFrame_setSponge _ _)))
    (phaseFrame_setPhase _ _)

theorem row0Body_frame (s : State) : phaseFrame s (row0Body s) :=
  phaseFrame_trans (phaseFrame_of_dataFrame (dataFrame_foldl row0Column_frame _ s)) (phaseFrame_setPhase _ _)

theorem row1Body_frame (s : State) : phaseFrame s (row1Body s) := by
  have h := phaseFrame_of_dataFrame (dataFrame_foldl row1Column_frame (List.range s.params.ncols.toNat) s)
  unfold row1Body
  dsimp only
  split
  · exact phaseFrame_trans h (phaseFrame_setPhase _ _)
  · exact phaseFrame_trans h (phaseFrame_enterWandering _)

theorem setupRowBody_frame (s : State) : phaseFrame s (setupRowBody s) := by
  have h := phaseFrame_trans (phaseFrame_of_dataFrame (dataFrame_foldl
    (setupColumn_frame s.cursor.row.toNat s.cursor.prev.toNat s.cursor.rowa.toNat)
    (List.range s.params.ncols.toNat) s)) (phaseFrame_setCursor _ (nextSetupCursor s.cursor))
  unfold setupRowBody
  dsimp only
  split
  · exact phaseFrame_trans h (phaseFrame_enterWandering _)
  · exact h

theorem wanderRowBody_frame (s : State) : phaseFrame s (wanderRowBody s) := by
  have h := phaseFrame_trans (phaseFrame_of_dataFrame (dataFrame_foldl
    (wanderColumn_frame s.cursor.row.toNat s.cursor.prev.toNat s.wanderRowa)
    (List.range s.params.ncols.toNat) s))
    (phaseFrame_setCursor _ (nextWanderCursor s.params.nrows.toNat s.params.tcost s.wanderRowa s.cursor))
  unfold wanderRowBody
  dsimp only
  split
  · exact phaseFrame_trans h (phaseFrame_setPhase _ _)
  · exact h

theorem wrapupBody_frame (s : State) : phaseFrame s (wrapupBody s) :=
  phaseFrame_trans (phaseFrame_of_dataFrame (dataFrame_trans (dataFrame_nextDraw s)
    (dataFrame_trans (dataFrame_setSponge _ _) (dataFrame_squeezeToOut _ _)))) (phaseFrame_setPhase _ _)

theorem whilePhase_frame {body : State → State} (hb : ∀ s, phaseFrame s (body s)) (p : Phase) (n : Nat) (s : State) :
    phaseFrame s (whilePhase p body n s) := by
  induction n generalizing s with
  | zero => exact phaseFrame_refl s
  | succ n ih =>
    simp only [whilePhase]
    split
    · exact phaseFrame_trans (hb s) (ih (body s))
    · exact phaseFrame_refl s

/-- R180: a derivation changes S, the stores, PHASE and the cursors alone. -/
theorem deriveRun_frame (s : State) : phaseFrame s (deriveRun s) :=
  phaseFrame_trans (startBody_frame s) <| phaseFrame_trans (absorbBody_frame _) <|
    phaseFrame_trans (row0Body_frame _) <| phaseFrame_trans (row1Body_frame _) <|
    phaseFrame_trans (whilePhase_frame setupRowBody_frame _ _ _) <|
    phaseFrame_trans (whilePhase_frame wanderRowBody_frame _ _ _) (wrapupBody_frame _)

end Sys2Proof.Machine
end

