-- ==== Sys2Proof/Laws/PerInstr.lean ====
section
/-! SUPPORT. Per command: its word has nothing in the reserved fields and its own opcode in OPC (R86, R88, R95). -/

namespace Sys2Proof.Laws.Encoding

/-- The word of a well-formed command has RSV0 = RSV1 = 0, its opcode in OPC and its immediate in IMM16. -/
def Statement (i : Instr) : Prop :=
  i.wellFormed = true →
    fieldRSV0 (encode i) = 0 ∧ fieldRSV1 (encode i) = 0 ∧ fieldOPC (encode i) = i.opcode ∧
      fieldIMM16 (encode i) = i.immediate

theorem nop : Statement .nop := by unfold Statement; decide

theorem clrerr : Statement .clrerr := by unfold Statement; decide

theorem srst : Statement .srst := by unfold Statement; decide

theorem init : Statement .init := by unfold Statement; decide

theorem perm : Statement .perm := by unfold Statement; decide

theorem permR : Statement .permR := by unfold Statement; decide

theorem absorb : Statement .absorb := by unfold Statement; decide

theorem duplex : Statement .duplex := by unfold Statement; decide

theorem duplexR : Statement .duplexR := by unfold Statement; decide

theorem squeeze (n : Nat) : Statement (.squeeze n) := by
  intro h
  have h : n ≤ 65535 := by simpa [Instr.wellFormed] using h
  simp only [fieldRSV0, fieldRSV1, fieldOPC, fieldIMM16, encode, Instr.opcode, Instr.immediate,
    BitVec.extractLsb'_toNat, BitVec.toNat_ofNat, Nat.shiftRight_eq_div_pow]
  omega

theorem mStart : Statement .mStart := by unfold Statement; decide

theorem mAbsorb : Statement .mAbsorb := by unfold Statement; decide

theorem mRow0 : Statement .mRow0 := by unfold Statement; decide

theorem mRow1 : Statement .mRow1 := by unfold Statement; decide

theorem mSetupRow : Statement .mSetupRow := by unfold Statement; decide

theorem mWanderRow : Statement .mWanderRow := by unfold Statement; decide

theorem mWrapup : Statement .mWrapup := by unfold Statement; decide

theorem derive : Statement .derive := by unfold Statement; decide

theorem deriveFixed : Statement .deriveFixed := by unfold Statement; decide

end Sys2Proof.Laws.Encoding
end

