-- ==== Sys2Proof/Tests/Slice0.lean ====
section
/-! SUPPORT. Tests. Expected values are the spec's: 95_test_vectors.md (V-…), the examples of the rules, or the words of
30_encoding.md R86 and R88 written out. Then one witness for each statement of Obligations.lean that has hypotheses. -/

namespace Sys2Proof.Tests

open Sys2Proof Sys2Proof.Machine

/-! ### Well-formedness -/

theorem test_wellFormed_squeeze_max : (Instr.squeeze 65535).wellFormed = true := by decide

/-- The one ill-formed shape: a byte count that does not fit IMM16. -/
theorem test_wellFormed_refuses_squeeze_65536 : (Instr.squeeze 65536).wellFormed = false := by decide

/-! ### Decoding: the words of R88, and the illegal words of V-C4, V-P8, V-S8, V-D7 -/

theorem test_decode_nop : decodeOption 0x0000000000000000#64 = some .nop := by decide

theorem test_decode_clrerr : decodeOption 0x0000000000000001#64 = some .clrerr := by decide

theorem test_decode_srst : decodeOption 0x0000000000000002#64 = some .srst := by decide

theorem test_decode_init : decodeOption 0x0000000000000010#64 = some .init := by decide

theorem test_decode_perm : decodeOption 0x0000000000000011#64 = some .perm := by decide

theorem test_decode_perm_r : decodeOption 0x0000000000000012#64 = some .permR := by decide

theorem test_decode_absorb : decodeOption 0x0000000000000013#64 = some .absorb := by decide

theorem test_decode_duplex : decodeOption 0x0000000000000014#64 = some .duplex := by decide

theorem test_decode_duplex_r : decodeOption 0x0000000000000015#64 = some .duplexR := by decide

theorem test_decode_squeeze_97 : decodeOption 0x0000000000610016#64 = some (.squeeze 97) := by decide

theorem test_decode_squeeze_65535 : decodeOption 0x00000000ffff0016#64 = some (.squeeze 65535) := by decide

theorem test_decode_m_start : decodeOption 0x0000000000000020#64 = some .mStart := by decide

theorem test_decode_m_absorb : decodeOption 0x0000000000000021#64 = some .mAbsorb := by decide

theorem test_decode_m_row0 : decodeOption 0x0000000000000022#64 = some .mRow0 := by decide

theorem test_decode_m_row1 : decodeOption 0x0000000000000023#64 = some .mRow1 := by decide

theorem test_decode_m_setup_row : decodeOption 0x0000000000000024#64 = some .mSetupRow := by decide

theorem test_decode_m_wander_row : decodeOption 0x0000000000000025#64 = some .mWanderRow := by decide

theorem test_decode_m_wrapup : decodeOption 0x0000000000000026#64 = some .mWrapup := by decide

theorem test_decode_derive : decodeOption 0x0000000000000030#64 = some .derive := by decide

theorem test_decode_derive_fixed : decodeOption 0x0000000000000031#64 = some .deriveFixed := by decide

theorem test_decode_illegal_words :
    [0x0000000000000003#64, 0x000000000000000f#64, 0x0000000000000017#64, 0x0000000000000027#64, 0x0000000000000032#64,
      0x00000000000000ff#64, 0x0000000000000100#64, 0x0000000100000000#64, 0x0000000000010010#64, 0x8000000000000016#64,
      0x0000000000010011#64, 0x0000000000200116#64, 0x0000000000000130#64].all
      (fun v => decodeOption v == none) = true := by decide

/-- R95's examples. -/
theorem test_encode_squeeze_32 : encode (.squeeze 32) = 0x0000000000200016#64 := by decide

theorem test_encode_derive : encode .derive = 0x0000000000000030#64 := by decide

/-! ### States the tests start from -/

/-- The next state of an outcome; reset where there is none. -/
def after (o : Host.Outcome State Fault Refusal) : State :=
  match o with
  | .next s => s
  | .fault _ => State.reset
  | .refused _ => State.reset

/-- S = [0, 1, …, 15] (V-P3, V-P4). -/
def countState : State := { State.reset with sponge := Vector.ofFn fun i => BitVec.ofNat 64 i.val }

/-- After INIT (DOC) with BLK_IN = [1, 2, …, 12] (V-S3, V-S4). -/
def initWithBlock : State :=
  { State.reset with
    sponge := initState Config.default
    blkIn := Vector.ofFn fun k => BitVec.ofNat 64 (k.val + 1) }

/-- P12(InitState()) in DOC (V-P7), its rate's first and last words and its capacity's last; the others stand where V-P7
gives them. -/
def squeezeState : State :=
  { State.reset with
    sponge := #v[0x78f04184b79f1bb1, 0xf144f4d0f3dac2b2, 0xed195ec63103b20d, 0xaa6bb9db7162d5e8,
      0x254dd16ca3d8a06b, 0x65e9d7a0462125e0, 0x5f9abe9a3c4dcfa7, 0x77dbc4fce0da4f03,
      0xb1cd33a7c3cd3a30, 0xe87580681f58a3a2, 0xcd86fb2675d0e70b, 0xb944c4edf77dd6f5,
      0x51b35a6beb9ea7fd, 0xf084f635b55dfa40, 0xd3b93d49563bd44d, 0x1d72bedf79230aea] }

/-- Input Z with R = C = 4 (V-M1): the parameters and 64 zero bytes in IN. -/
def inputZ : State :=
  { State.reset with params := ⟨32, 32, 32, 1, 4, 4⟩, mem := cellsFrom inBase (List.replicate 64 0) }

/-- Input Z after M_ABSORB (V-M1's S), PHASE = ROWINIT0. -/
def absorbedZ : State :=
  { inputZ with
    phase := .rowInit0
    cursor := startCursor
    sponge := #v[0x7c2dbacc1a9a83ac, 0x79c2c7661dfeb74f, 0x28780e6a82154dac, 0x0ad166cbe7eb6036,
      0x20df30602d64763c, 0x3f145e1ee37a5af2, 0x05dc778e248b744b, 0xdbbfe6548c06bba6,
      0xd24c4fb31b617dd6, 0xbc657caa76f21fda, 0x29126ea328c9f7c8, 0x19648c34dd45436e,
      0xdce97993ec3d6dcb, 0x62bc1bad95fbca08, 0xe4cee88e9e5a1cbb, 0x9bde5db84684b6a7] }

/-! ### Control commands -/

/-- V-C1: STATUS 0x0700 stays. -/
theorem test_nop_keeps_status :
    (after (exec .nop { State.reset with phase := .done, busy := true })).statusWord = 0x0700#64 := by decide

/-- V-C2: STATUS 0x0532 gives 0x0500. -/
theorem test_clrerr_keeps_phase :
    (after (exec .clrerr { State.reset with phase := .wandering, err := .param, wign := true, busy := true })).statusWord
      = 0x0500#64 := by decide

/-- V-C3: STATUS 0 and the parameters 0, S kept. -/
theorem test_srst_clears_control :
    let s := after (exec .srst { inputZ with phase := .wandering, err := .phase, wign := true, busy := true })
    s.statusWord = 0x0000#64 ∧ s.params.nrows = 0 := by decide

theorem test_srst_keeps_sponge : (after (exec .srst countState)).sponge = countState.sponge := by decide

/-! ### Permutation Core -/

/-- V-P1: G(1, 0, 0, 0). -/
theorem test_mixG_unit : mixG Config.default.rot 1 0 0 0 =
    (0x0000000000000101, 0x0202000200020200, 0x0101000100010000, 0x0101000000010000) := by decide

/-- V-P3. -/
theorem test_perm_r_count :
    let S := (after (exec .permR countState)).sponge
    S[0] = 0x303e56222f1c281d#64 ∧ S[7] = 0x482034fea8a0c00e#64 ∧ S[15] = 0x0c0b242d48343c1a#64 := by decide +kernel

/-- V-P4. -/
theorem test_perm_count :
    let S := (after (exec .perm countState)).sponge
    S[0] = 0xf8e902a9e2a83c38#64 ∧ S[15] = 0x0fdf9df413fe44d2#64 := by decide +kernel

/-- V-P8: PERM in SETUP gives STATUS 0x0420. -/
theorem test_perm_in_setup : (after (exec .perm { countState with phase := .setup })).statusWord = 0x0420#64 := by
  decide

/-! ### Sponge Engine -/

/-- V-S1 (DOC). -/
theorem test_init_doc :
    let S := (after (exec .init State.reset)).sponge
    S[11] = 0 ∧ S[12] = 0x510e527fade682d1#64 ∧ S[15] = 0x5be0cd19137e2179#64 := by decide +kernel

/-- V-S1 (REF). -/
theorem test_init_ref :
    let S := (after (exec .init { State.reset with cfg := { Config.default with profile := .ref } })).sponge
    S[7] = 0 ∧ S[8] = 0x6a09e667f3bcc908#64 ∧ S[15] = 0x5be0cd19137e2179#64 := by decide +kernel

/-- V-S2: BLK_IN = [1, 0 × 11]. -/
theorem test_absorb_one :
    let S := (after (exec .absorb { initWithBlock with blkIn := (Vector.replicate 12 0).set 0 1 })).sponge
    S[0] = 0x1407876e6151d2a0#64 ∧ S[15] = 0x3be1b8b3865c0a25#64 := by decide +kernel

/-- V-S3. -/
theorem test_duplex_block :
    let s := after (exec .duplex initWithBlock)
    s.blkOut[0] = 0x96d216f871f6fe53#64 ∧ s.blkOut[11] = 0xbd368265dd5fefc6#64 := by decide +kernel

/-- V-S4. -/
theorem test_duplex_r_block :
    let s := after (exec .duplexR initWithBlock)
    s.blkOut[0] = 0x891a59efb02a5c72#64 ∧ s.blkOut[11] = 0xbe4e750d6f192723#64 ∧ s.sponge[15] = 0x0df8bda3700e6408#64 := by
  decide +kernel

/-- V-S5: the 97th byte comes after one P12. -/
theorem test_squeeze_97 :
    let s := after (exec (.squeeze 97) squeezeState)
    s.loadBytes outBase 2 = [0xb1, 0x1b] ∧ s.loadBytes (outBase + 95) 2 = [0xb9, 0xd8] := by decide +kernel

/-- V-S6: n = 257 with OUT_BYTES = 256. -/
theorem test_squeeze_too_long : (after (exec (.squeeze 257) squeezeState)).statusWord = 0x0030#64 := by decide

/-! ### Memory Matrix Engine -/

/-- V-M1 row 1: STATUS and the cursor after M_START. -/
theorem test_m_start_ok :
    let s := after (exec .mStart inputZ)
    s.statusWord = 0x0100#64 ∧ s.cursor = ⟨2, 1, 0, 1, 2, 1, 0⟩ := by decide

/-- V-E1 and V-E3: PARAM and ALLOC, PARAM before ALLOC, and no wrap of PWDLEN + SALTLEN. -/
theorem test_m_start_errors :
    [(⟨32, 32, 32, 1, 1, 4⟩ : Params), ⟨32, 32, 32, 1, 4, 65536⟩, ⟨257, 32, 32, 1, 4, 4⟩,
      ⟨32, 0xffffffffffffffff, 1, 1, 4, 4⟩, ⟨32, 48, 0, 1, 4, 1⟩, ⟨32, 32, 32, 1, 11, 8⟩, ⟨300, 32, 32, 1, 16, 8⟩].map
      (fun p => (after (exec .mStart { inputZ with params := p })).statusWord) =
    [0x0030#64, 0x0030#64, 0x0030#64, 0x0030#64, 0x0030#64, 0x0040#64, 0x0030#64] := by decide

/-- V-M1: S[0] and STATUS after M_ABSORB. -/
theorem test_m_absorb_z :
    let s := after (exec .mAbsorb { inputZ with phase := .absorbing, sponge := initState Config.default })
    s.sponge[0] = 0x7c2dbacc1a9a83ac#64 ∧ s.statusWord = 0x0200#64 := by decide +kernel

/-- V-M7: one pad byte, 0x81. -/
theorem test_padding_one_byte : (padTo 96 (List.replicate 95 0))[95]? = some 0x81 := by decide +kernel

/-- V-M2: the first block squeezed goes to the last column; S[0] after. -/
theorem test_m_row0_z :
    let s := after (exec .mRow0 absorbedZ)
    s.windowWord (matBase + 8 * 36) = 0x7c2dbacc1a9a83ac#64 ∧ s.sponge[0] = 0x1f61d9bed3cd9e38#64 := by decide +kernel

/-- V-M3: S[0] and STATUS after M_ROW1. -/
theorem test_m_row1_z :
    let s := after (exec .mRow1 (after (exec .mRow0 absorbedZ)))
    s.sponge[0] = 0x5198abaa8959d678#64 ∧ s.statusWord = 0x0400#64 := by decide +kernel

/-- V-M4: the first six Setup cursors. -/
theorem test_setup_schedule :
    (List.range 6).map (fun n => nextSetupCursor^[n + 1] startCursor) =
      [⟨3, 2, 1, 1, 2, 1, 0⟩, ⟨4, 3, 0, 3, 4, -1, 0⟩, ⟨5, 4, 3, 3, 4, -1, 0⟩, ⟨6, 5, 2, 3, 4, -1, 0⟩,
        ⟨7, 6, 1, 3, 4, -1, 0⟩, ⟨8, 7, 0, 3, 8, 1, 0⟩] := by decide +kernel

/-- V-M1 row 6: the last Setup row of R = 4 enters Wandering. -/
theorem test_m_setup_row_last :
    let s := after (exec .mSetupRow { inputZ with phase := .setup, cursor := ⟨3, 2, 1, 1, 2, 1, 0⟩ })
    s.cursor = ⟨0, 3, 0, 1, 4, -1, 1⟩ ∧ s.statusWord = 0x0500#64 := by decide +kernel

/-- V-M5: row* = S[0] mod 4 = 3 at the first visit, and the cursor after it. -/
theorem test_m_wander_row_first :
    let s := after (exec .mWanderRow { inputZ with
      phase := .wandering
      cursor := ⟨0, 3, 0, 1, 4, -1, 1⟩
      sponge := (Vector.replicate 16 0).set 0 0x188b7425b0a43bbf })
    s.cursor = ⟨1, 0, 3, 1, 4, -1, 1⟩ ∧ s.statusWord = 0x0500#64 := by decide +kernel

/-- R156: ROW = 0 with STEP = -1 goes to R - 1 (V-M8, R = 5). -/
theorem test_m_wander_row_wraps :
    (nextWanderCursor 5 2 3 ⟨0, 1, 3, -1, 4, -1, 2⟩).row = 4 := by decide

/-- R158: KLEN = 0 writes no byte; the derivation is DONE. -/
theorem test_m_wrapup_klen_zero :
    let s := after (exec .mWrapup { inputZ with phase := .wrapUp, params := ⟨0, 32, 32, 1, 4, 4⟩ })
    s.mem = inputZ.mem ∧ s.statusWord = 0x0700#64 := by decide +kernel

/-- V-M9: M_WRAPUP in DONE gives STATUS 0x0720. -/
theorem test_m_wrapup_in_done : (after (exec .mWrapup { inputZ with phase := .done })).statusWord = 0x0720#64 := by
  decide

/-! ### Key derivation -/

/-- V-D7: DERIVE with NROWS = 0. -/
theorem test_derive_no_rows : (after (exec .derive State.reset)).statusWord = 0x0030#64 := by decide

/-- V-M8 (R = 2, T = 0): no Setup row and no Wandering visit leave M_START's cursor. -/
theorem test_derive_two_rows :
    let s := after (exec .derive { inputZ with params := ⟨32, 32, 32, 0, 2, 4⟩ })
    s.cursor = ⟨2, 1, 0, 1, 2, 1, 0⟩ ∧ s.statusWord = 0x0700#64 := by decide +kernel

/-- V-D3 and V-D7: from PHASE 5 with parameters DERIVE refuses, the fixed parameters and STATUS 0x0700. -/
theorem test_derive_fixed_parameters :
    let s := after (exec .deriveFixed { State.reset with phase := .wandering })
    s.params = ⟨32, 32, 32, 1, 4, 4⟩ ∧ s.statusWord = 0x0700#64 := by decide +kernel

/-! ### The host window and the step -/

/-- Program P3, first line: M_START after reset, issued by the host, gives PARAM. -/
theorem test_step_runs_issued_command :
    (after (step (after (step { State.reset with host := run .mStart })))).statusWord = 0x0030#64 := by decide

/-- V-C5: PERM is suppressed while ERR = PARAM. -/
theorem test_suppression :
    after (engineStep ({ countState with err := .param }.withCommand 0x11)) =
      { countState with err := .param, lcmd := 0x11 } := by decide

/-- V-C6: the parameter lock in PHASE 1. -/
theorem test_parameter_lock :
    let s := after (step { inputZ with phase := .absorbing, host := wr 0x070 8 })
    s.statusWord = 0x0102#64 ∧ s.params.nrows = 4 := by decide

/-- R30 and R68: ID, CMD and an unmapped offset. -/
theorem test_constant_reads :
    [0x000, 0x040, 0x038].map State.reset.hostRead = [0x0000000053500001#64, 0x0#64, 0x0#64] := by decide

/-- R62, R66: a MAT word written at its offset reads back, little-endian in the stores. -/
theorem test_mat_word :
    let s := after (step { State.reset with host := wr (matBase + 0x120) 0x0706050403020100 })
    s.hostRead (matBase + 0x120) = 0x0706050403020100#64 ∧ Memory.byteAt s.mem (matBase + 0x121) = some 0x01 := by
  decide

/-- R61: an access that is not 8 bytes wide stops the host. -/
theorem test_host_stuck : isNext (step { State.reset with host := [.read 0x048 4] }) = false := by decide

/-! ### Witnesses: for each statement of Obligations.lean that has hypotheses, a state and operands that meet them all -/

theorem next_after {o : Host.Outcome State Fault Refusal} (h : isNext o = true) : o = .next (after o) := by
  cases o <;> simp_all [isNext, after]

/-- A 4 x 1 matrix of zero cells, and 16 input bytes written: a small valid derivation. -/
def smallMatrix : State :=
  { State.reset with
    params := ⟨32, 8, 8, 1, 4, 1⟩
    mem := cellsFrom inBase (List.replicate 16 0) ++ cellsFrom matBase (List.replicate 384 0) }

/-- Its cursor at the first Setup row. -/
def setupState : State := { smallMatrix with phase := .setup, cursor := startCursor }

/-- Its cursor at the last Setup row. -/
def lastSetupState : State := { smallMatrix with phase := .setup, cursor := ⟨3, 2, 1, 1, 2, 1, 0⟩ }

/-- Its cursor at the first Wandering visit; row* = ROW = 0. -/
def wanderState : State := { smallMatrix with phase := .wandering, cursor := ⟨0, 3, 0, 1, 4, -1, 1⟩ }

/-- At the last Wandering visit of the last pass; row* = 2, ROW = 3. -/
def lastWanderState : State :=
  { smallMatrix with
    phase := .wandering
    cursor := ⟨3, 2, 1, 1, 4, -1, 1⟩
    sponge := (Vector.replicate 16 0).set 0 6 }

/-- The same visit with a second pass to come. -/
def nextPassState : State := { lastWanderState with params := ⟨32, 8, 8, 2, 4, 1⟩ }

/-- Every cell of the small matrix holds the zero block. -/
theorem small_cell (r : Nat) (hr : r < 4) : smallMatrix.cellHolds r 0 (Vector.replicate 12 0) := by
  intro j hj
  have hl : (blockBytes (Vector.replicate 12 0) : List Byte) = List.replicate 96 0 := by decide +kernel
  rw [hl] at hj ⊢
  simp only [List.length_replicate] at hj
  have ha : smallMatrix.cellAddr r 0 = matBase + 96 * r := by
    change matBase + 8 * ((r * 1 + 0) * 12) = _
    omega
  rw [ha]
  simp only [smallMatrix, byteAt_append, byteAt_cellsFrom, List.getElem?_replicate]
  rw [if_pos (by simp [matBase, inBase]; omega), if_neg (by simp [matBase, inBase]; omega),
    if_pos (by omega), if_pos (by omega), if_pos hj]
  rfl

/-- The 16 input bytes are written. -/
theorem small_input : smallMatrix.holds inBase (List.replicate 16 0) := by
  intro j hj
  simp only [List.length_replicate] at hj
  simp only [smallMatrix, byteAt_append, byteAt_cellsFrom, List.getElem?_replicate]
  rw [if_pos (by omega), if_pos (by omega), if_pos hj]
  rfl

theorem small_valid : validate smallMatrix.cfg smallMatrix.params = none := by decide

theorem legal_default : Config.default.Legal := by decide

/-- The wandering state of an empty matrix meets the invariant. -/
def emptyWanderState : State := { lastWanderState with mem := [] }

theorem setup_cursor_start : SetupCursor 4 startCursor :=
  ⟨⟨1, by decide⟩, by decide, by decide, by decide, by decide, by decide, by decide, by decide, by decide, by decide,
    by decide⟩

theorem setup_cursor_last : SetupCursor 4 ⟨3, 2, 1, 1, 2, 1, 0⟩ :=
  ⟨⟨1, by decide⟩, by decide, by decide, by decide, by decide, by decide, by decide, by decide, by decide, by decide,
    by decide⟩

theorem wander_cursor_first : WanderCursor 4 1 ⟨0, 3, 0, 1, 4, -1, 1⟩ :=
  ⟨by decide, by decide, by decide, by decide, by decide⟩

theorem wander_cursor_last : WanderCursor 4 1 ⟨3, 2, 1, 1, 4, -1, 1⟩ :=
  ⟨by decide, by decide, by decide, by decide, by decide⟩

theorem wander_cursor_next_pass : WanderCursor 4 2 ⟨3, 2, 1, 1, 4, -1, 1⟩ :=
  ⟨by decide, by decide, by decide, by decide, by decide⟩

theorem empty_wander_inv : emptyWanderState.Inv where
  cfg_legal := by decide
  mem_wf := List.Pairwise.nil
  mem_mapped := by simp [emptyWanderState]
  idle_delay := by decide
  valid := by decide
  start := by decide
  setup := fun h => absurd h (by decide)
  wandering := fun _ => wander_cursor_last
  wrapUp := by decide

theorem witness_DecodeOfEncode : (Instr.squeeze 65535).wellFormed = true ∧ Instr.mWrapup.wellFormed = true := by decide

theorem witness_EncodeOfDecode : decode 0x00000000ffff0016#64 = .ok (.squeeze 65535) := by rfl

theorem witness_StepRunsDecodedCommand_due :
    let s := countState.withCommand 0x11
    s.busy = true ∧ s.engineDelay = 0 ∧ decode s.lcmd = .ok .perm := ⟨rfl, rfl, rfl⟩

theorem witness_StepRunsDecodedCommand_waited :
    let s : State := { countState.withCommand 0x11 with engineDelay := 5, host := [.wait] }
    s.busy = true ∧ hostWaits s.host = true ∧ decode s.lcmd = .ok .perm := ⟨rfl, rfl, rfl⟩

theorem witness_StepRunsDecodedCommand_illegal :
    let s := countState.withCommand 0x03
    s.busy = true ∧ s.engineDelay = 0 ∧ ∃ e, decode s.lcmd = .error e := ⟨rfl, rfl, _, rfl⟩

theorem witness_StepRunsDecodedCommand_placed : decodeTableWord 64 0x00200016 = some (.squeeze 32) := by decide

theorem witness_SuppressionWhileErrorRecorded :
    let s : State := { countState.withCommand 0x03 with err := .param }
    s.err ≠ .none ∧ recovers .perm = false ∧ decodeOption s.lcmd = none := by decide

theorem witness_IllegalWordRaisesIllegal :
    let s := countState.withCommand 0x32
    s.err = .none ∧ decodeOption s.lcmd = none := by decide

theorem witness_PhaseLegality_illegal :
    let s : State := { countState with phase := .setup }
    s.err = .none ∧ s.phase ∉ legalPhases .perm := by decide

theorem witness_PhaseLegality_legal :
    let s : State := { countState with phase := .done }
    s.err = .none ∧ s.phase ∈ legalPhases .perm ∧ exec .perm s = .next (after (exec .perm s)) :=
  ⟨rfl, by decide, next_after rfl⟩

theorem witness_ErrorEntryIsPrecise :
    let s := (State.reset.withCommand 0x20)
    s.err = .none ∧ engineStep s = .next (after (engineStep s)) ∧ (after (engineStep s)).err ≠ .none :=
  ⟨rfl, next_after rfl, by decide⟩

theorem witness_ErrorsByCommand_command :
    let s := State.reset
    s.cfg.Legal ∧ s.err = .none ∧ exec .mStart s = .next (after (exec .mStart s)) :=
  ⟨legal_default, rfl, next_after rfl⟩

theorem witness_ErrorsByCommand_table : ErrCode.alloc ∈ possibleErrors .derive := by decide

theorem witness_ClrerrRestoresFailedState :
    let s : State := { countState with phase := .setup, wign := true }
    s.err = .none ∧ exec .perm s = .next (after (exec .perm s)) ∧ (after (exec .perm s)).err ≠ .none :=
  ⟨rfl, next_after rfl, by decide⟩

theorem witness_CommandCompletes :
    ({ countState.withCommand 0x11 with engineDelay := 2, host := rd 0x048 ++ rd 0x048 ++ rd 0x048 } : State).busy
      = true := rfl

/-- A read too narrow, a write off the 8-byte grid, a read at 2^40. -/
theorem witness_StepStopsOnlyWhenHostStuck :
    step { State.reset with host := [.read 0x048 4] } = .fault (.hostStuck 0x048 4) ∧
    step { State.reset with host := [.write 0x044 8 0] } = .fault (.hostStuck 0x044 8) ∧
    step { State.reset with host := [.read (2 ^ 40) 8] } = .fault (.hostStuck (2 ^ 40) 8) := ⟨rfl, rfl, rfl⟩

theorem witness_PermutationProperties :
    let rot := Config.default.rot
    legalRotation rot.r0 ∧ legalRotation rot.r1 ∧ legalRotation rot.r2 ∧ legalRotation rot.r3 := by decide

/-- Two columns, and two diagonals (R103). -/
theorem witness_DisjointMixingCommutes :
    (([0, 4, 8, 12] : List (Fin 16)).Nodup ∧ ([3, 7, 11, 15] : List (Fin 16)).Nodup ∧
      ∀ x ∈ ([0, 4, 8, 12] : List (Fin 16)), x ∉ ([3, 7, 11, 15] : List (Fin 16))) ∧
    (([0, 5, 10, 15] : List (Fin 16)).Nodup ∧ ([3, 4, 9, 14] : List (Fin 16)).Nodup ∧
      ∀ x ∈ ([0, 5, 10, 15] : List (Fin 16)), x ∉ ([3, 4, 9, 14] : List (Fin 16))) := by decide

/-- PERM and PERM_R. -/
theorem witness_PermutationCommands :
    (countState.err = .none ∧ countState.phase = .idle) ∧
    (let s : State := { countState with phase := .done }
     s.err = .none ∧ s.phase = .done) := by decide

/-- The rate's and the capacity's first and last words, in both profiles. -/
theorem witness_RateAndCapacity :
    (0 < 12 ∧ 11 < 12) ∧ (12 ≤ 12 ∧ 12 < 16 ∧ 12 ≤ 15 ∧ 15 < 16) ∧ Config.default.profile = .doc ∧
      ({ Config.default with profile := .ref } : Config).profile = .ref := by decide

theorem witness_SpongeCommands :
    (initWithBlock.err = .none ∧ initWithBlock.phase = .idle) ∧
    (let s : State := { initWithBlock with phase := .done }
     s.err = .none ∧ s.phase = .done) := by decide

theorem witness_SqueezeComposition : 0 < 96 ∧ 95 < 96 := by decide

theorem witness_SqueezeCommand :
    squeezeState.err = .none ∧ squeezeState.phase = .idle ∧ 0 ≤ squeezeState.cfg.outBytes ∧
      256 ≤ squeezeState.cfg.outBytes ∧ squeezeState.cfg.outBytes < 257 := by decide

theorem witness_RotWMovesWords : (0 < 1 ∧ 1 < 12) ∧ (0 < 11 ∧ 11 < 12) := by decide

/-- The clauses of R140 at the borders of each range: a check that fails, a matrix one row too large, one that just
fits. -/
theorem witness_ValidationErrors :
    let pass := fun (c : Config) (p : Params) =>
      let R := p.nrows.toNat
      let C := p.ncols.toNat
      let L := p.pwdlen.toNat + p.saltlen.toNat
      let bin := if c.profile = .doc then 96 else 64
      (2 ≤ R ∧ R ≤ 65535) ∧ (1 ≤ C ∧ C ≤ 65535) ∧ p.klen.toNat ≤ c.outBytes ∧ L ≤ c.inBytes ∧
        bin * ((L + 48) / bin + 1) ≤ 96 * C
    State.reset.err = .none ∧ State.reset.cfg = Config.default ∧
    (∀ p ∈ ([⟨32, 8, 8, 1, 1, 1⟩, ⟨32, 8, 8, 1, 65536, 1⟩, ⟨32, 8, 8, 1, 4, 0⟩, ⟨32, 8, 8, 1, 4, 65536⟩,
        ⟨257, 8, 8, 1, 4, 1⟩, ⟨32, 128, 1, 1, 4, 4⟩, ⟨32, 48, 0, 1, 4, 1⟩] : List Params), ¬ pass Config.default p) ∧
    (pass Config.default ⟨256, 47, 0, 1, 65535, 1⟩ ∧ Config.default.matWords < 65535 * 1 * 12) ∧
    (pass Config.default ⟨32, 8, 8, 1, 86, 1⟩ ∧ Config.default.matWords < 86 * 1 * 12) ∧
    (pass Config.default ⟨32, 64, 64, 1, 85, 1⟩ → False) ∧
    (pass Config.default ⟨32, 47, 0, 1, 85, 1⟩ ∧ 85 * 1 * 12 ≤ Config.default.matWords) ∧
    (pass Config.default ⟨0, 0, 0, 0, 2, 1⟩ ∧ 2 * 1 * 12 ≤ Config.default.matWords) := by decide

theorem witness_MStartCommand :
    smallMatrix.err = .none ∧ validate smallMatrix.cfg smallMatrix.params = none := ⟨rfl, small_valid⟩

theorem witness_BasilLayout :
    let p := smallMatrix.params
    [p.klen, p.pwdlen, p.saltlen, p.tcost, p.nrows, p.ncols][0]? = some 32 ∧
      [p.klen, p.pwdlen, p.saltlen, p.tcost, p.nrows, p.ncols][5]? = some 1 ∧ 7 < 8 := by decide

/-- One pad byte; two; a whole pad block; one byte blocks. -/
theorem witness_PaddingLayout :
    (0 < 96 ∧ 95 + 1 = 96 * (95 / 96 + 1)) ∧ (94 + 1 < 96 * (94 / 96 + 1) ∧ 94 < 95) ∧
      (96 + 1 < 96 * (96 / 96 + 1) ∧ 96 < 97 ∧ 97 < 96 * (96 / 96 + 1) - 1) ∧ (0 < 1 ∧ 0 + 1 = 1 * (0 / 1 + 1)) := by
  decide

/-- Both profiles, and NCOLS = 4 and not. -/
theorem witness_MAbsorbCommand :
    ∀ s ∈ [({ smallMatrix with phase := .absorbing } : State),
        { smallMatrix with phase := .absorbing, cfg := { Config.default with profile := .ref } },
        { smallMatrix with
          phase := .absorbing
          params := ⟨32, 8, 8, 1, 4, 4⟩
          cfg := { Config.default with profile := .ref } }],
      s.err = .none ∧ s.phase = .absorbing ∧
        (List.replicate 16 0 : List Byte).length = s.params.pwdlen.toNat + s.params.saltlen.toNat ∧
        s.holds inBase (List.replicate 16 0) := by
  intro s hs
  simp only [List.mem_cons, List.not_mem_nil, or_false] at hs
  rcases hs with rfl | rfl | rfl <;> exact ⟨rfl, rfl, by decide, small_input⟩

theorem witness_MRow0Command :
    let s : State := { smallMatrix with phase := .rowInit0 }
    s.err = .none ∧ s.phase = .rowInit0 ∧ 0 < s.params.ncols.toNat := by decide

/-- R > 2; R = 2 with T = 0 and T > 0. -/
theorem witness_MRow1Command :
    ∀ p ∈ ([⟨32, 8, 8, 1, 4, 1⟩, ⟨32, 8, 8, 0, 2, 1⟩, ⟨32, 8, 8, 1, 2, 1⟩] : List Params),
      let s : State := { smallMatrix with phase := .rowInit1, params := p }
      s.err = .none ∧ s.phase = .rowInit1 ∧
        ∀ c, c < s.params.ncols.toNat → s.cellHolds 0 c (Vector.replicate 12 0) := by
  intro p hp
  simp only [List.mem_cons, List.not_mem_nil, or_false] at hp
  rcases hp with rfl | rfl | rfl <;>
    exact ⟨rfl, rfl, fun c hc => by
      obtain rfl : c = 0 := Nat.lt_one_iff.1 hc
      exact small_cell 0 (by decide)⟩

/-- The first and the last Setup row. -/
theorem witness_MSetupRowCommand :
    ∀ s ∈ [setupState, lastSetupState],
      s.err = .none ∧ s.phase = .setup ∧ SetupCursor s.params.nrows.toNat s.cursor ∧
        (∀ c, c < s.params.ncols.toNat → s.cellHolds s.cursor.prev.toNat c (Vector.replicate 12 0)) ∧
        (∀ c, c < s.params.ncols.toNat → s.cellHolds s.cursor.rowa.toNat c (Vector.replicate 12 0)) := by
  intro s hs
  simp only [List.mem_cons, List.not_mem_nil, or_false] at hs
  rcases hs with rfl | rfl
  · refine ⟨rfl, rfl, setup_cursor_start, fun c hc => ?_, fun c hc => ?_⟩
    · obtain rfl : c = 0 := Nat.lt_one_iff.1 hc
      exact small_cell 1 (by decide)
    · obtain rfl : c = 0 := Nat.lt_one_iff.1 hc
      exact small_cell 0 (by decide)
  · refine ⟨rfl, rfl, setup_cursor_last, fun c hc => ?_, fun c hc => ?_⟩
    · obtain rfl : c = 0 := Nat.lt_one_iff.1 hc
      exact small_cell 2 (by decide)
    · obtain rfl : c = 0 := Nat.lt_one_iff.1 hc
      exact small_cell 1 (by decide)

/-- ROWA goes to 1 after the first Setup row, and back to 0 after the last. -/
theorem witness_SetupCursorUpdate :
    SetupCursor 4 startCursor ∧ (0 + startCursor.step.toInt.toNat) &&& (2 - 1) = 1 ∧
      SetupCursor 4 ⟨3, 2, 1, 1, 2, 1, 0⟩ ∧ (1 + (1#64).toInt.toNat) &&& (2 - 1) = 0 :=
  ⟨setup_cursor_start, by decide, setup_cursor_last, by decide⟩

theorem witness_SetupScheduleInvariant :
    (3 ≤ 65535 ∧ 65535 ≤ 65535) ∧ SetupCursor 4 startCursor ∧ startCursor.row.toNat + 1 < 4 :=
  ⟨by decide, setup_cursor_start, by decide⟩

/-- row* = ROW and ROW not back at 0. -/
theorem witness_MWanderRowCommand_same_row :
    let s := wanderState
    s.err = .none ∧ s.phase = .wandering ∧ WanderCursor s.params.nrows.toNat s.params.tcost s.cursor ∧
      s.sponge[0].toNat % s.params.nrows.toNat = s.cursor.row.toNat ∧
      (((s.cursor.row.toNat : Int) + s.cursor.step.toInt) % (s.params.nrows.toNat : Int) ≠ 0) ∧
      ∀ r, r < 4 → ∀ c, c < s.params.ncols.toNat → s.cellHolds r c (Vector.replicate 12 0) :=
  ⟨rfl, rfl, wander_cursor_first, by decide, by decide, fun r hr c hc => by
    obtain rfl : c = 0 := Nat.lt_one_iff.1 hc
    exact small_cell r hr⟩

/-- row* ≠ ROW, ROW back at 0 in the last pass. -/
theorem witness_MWanderRowCommand_last :
    let s := lastWanderState
    s.err = .none ∧ s.phase = .wandering ∧ WanderCursor s.params.nrows.toNat s.params.tcost s.cursor ∧
      s.sponge[0].toNat % s.params.nrows.toNat = 2 ∧ s.cursor.row.toNat = 3 ∧
      ((s.cursor.row.toNat : Int) + s.cursor.step.toInt) % (s.params.nrows.toNat : Int) = 0 ∧
      s.cursor.tau = s.params.tcost ∧
      ∀ r, r < 4 → ∀ c, c < s.params.ncols.toNat → s.cellHolds r c (Vector.replicate 12 0) :=
  ⟨rfl, rfl, wander_cursor_last, by decide, rfl, by decide, rfl, fun r hr c hc => by
    obtain rfl : c = 0 := Nat.lt_one_iff.1 hc
    exact small_cell r hr⟩

/-- ROW back at 0 with a pass to come. -/
theorem witness_MWanderRowCommand_next_pass :
    let s := nextPassState
    s.err = .none ∧ s.phase = .wandering ∧ WanderCursor s.params.nrows.toNat s.params.tcost s.cursor ∧
      ((s.cursor.row.toNat : Int) + s.cursor.step.toInt) % (s.params.nrows.toNat : Int) = 0 ∧
      s.cursor.tau ≠ s.params.tcost ∧
      ∀ r, r < 4 → ∀ c, c < s.params.ncols.toNat → s.cellHolds r c (Vector.replicate 12 0) :=
  ⟨rfl, rfl, wander_cursor_next_pass, by decide, by decide, fun r hr c hc => by
    obtain rfl : c = 0 := Nat.lt_one_iff.1 hc
    exact small_cell r hr⟩

/-- R = 2 and R = 3 on an odd pass; R = 4, a power of two, on both kinds. -/
theorem witness_WanderPassLength :
    (2 ≤ 2 ∧ 1 % 2 = 1) ∧ (2 ≤ 3 ∧ 1 % 2 = 1) ∧ (∃ k, 2 ≤ k ∧ 4 = 2 ^ k) ∧ passVisits 2 1 = 1 ∧ passVisits 3 1 = 1 ∧
      passVisits 4 1 = 4 ∧ passVisits 4 2 = 4 :=
  ⟨by decide, by decide, ⟨2, by decide⟩, by decide +kernel, by decide +kernel, by decide +kernel, by decide +kernel⟩

theorem witness_MWrapupCommand :
    let s : State := { smallMatrix with phase := .wrapUp, cursor := ⟨0, 3, 3, 1, 4, -1, 1⟩ }
    s.err = .none ∧ s.phase = .wrapUp ∧ s.cellHolds s.cursor.rowa.toNat 0 (Vector.replicate 12 0) :=
  ⟨rfl, rfl, small_cell 3 (by decide)⟩

/-- Each phase command in its phase. -/
theorem witness_PhaseCommandsCompleteWithFrame :
    ∀ p ∈ [(Instr.mAbsorb, Phase.absorbing), (.mRow0, .rowInit0), (.mRow1, .rowInit1), (.mSetupRow, .setup),
        (.mWanderRow, .wandering), (.mWrapup, .wrapUp)],
      p.1 ∈ [Instr.mAbsorb, .mRow0, .mRow1, .mSetupRow, .mWanderRow, .mWrapup] ∧
        ({ State.reset with phase := p.2 } : State).err = .none ∧
        ({ State.reset with phase := p.2 } : State).phase ∈ legalPhases p.1 := by decide

theorem witness_PhaseTransitions :
    let s := emptyWanderState
    s.Inv ∧ exec .mWanderRow s = .next (after (exec .mWanderRow s)) ∧ (after (exec .mWanderRow s)).phase ≠ s.phase :=
  ⟨empty_wander_inv, next_after rfl, by decide +kernel⟩

theorem witness_DeriveEqualsSteps :
    smallMatrix.err = .none ∧ validate smallMatrix.cfg smallMatrix.params = none ∧
      validate State.reset.cfg State.reset.params = some .param := ⟨rfl, small_valid, by decide⟩

theorem witness_DeriveCompletesWithFrame :
    smallMatrix.err = .none ∧ validate smallMatrix.cfg smallMatrix.params = none := ⟨rfl, small_valid⟩

theorem witness_DeriveFixedNeverFails :
    let s : State := { countState with phase := .wandering }
    s.cfg.Legal ∧ s.err = .none := ⟨legal_default, rfl⟩

theorem witness_DeriveFixedEqualsDerive :
    let s : State := { countState with phase := .wandering }
    s.cfg.Legal ∧ s.err = .none ∧ s.busy = false ∧ (Phase.idle = .idle ∨ Phase.done = .done) :=
  ⟨legal_default, rfl, rfl, .inl rfl⟩

/-- Two states that differ in S, in a capacity of the configuration and in what BLK_IN holds. -/
theorem witness_DeriveIsDeterministic :
    let s := smallMatrix
    let s' : State :=
      { smallMatrix with
        cfg := { Config.default with matWords := 2048 }
        sponge := countState.sponge
        blkIn := initWithBlock.blkIn
        phase := .done }
    s.cfg.Legal ∧ s'.cfg.Legal ∧ s.err = .none ∧ s'.err = .none ∧ s.cfg.profile = s'.cfg.profile ∧
      s.cfg.rot = s'.cfg.rot ∧ s.cfg.iv = s'.cfg.iv ∧ s.params = s'.params ∧ validate s.cfg s.params = none ∧
      validate s'.cfg s'.params = none ∧
      (List.replicate 16 0 : List Byte).length = s.params.pwdlen.toNat + s.params.saltlen.toNat ∧
      s.holds inBase (List.replicate 16 0) ∧ s'.holds inBase (List.replicate 16 0) ∧
      exec .derive s = .next (after (exec .derive s)) ∧ exec .derive s' = .next (after (exec .derive s')) := by
  refine ⟨legal_default, by decide, rfl, rfl, rfl, rfl, rfl, rfl, small_valid, by decide, by decide, small_input,
    small_input, ?_, ?_⟩
  · obtain ⟨t, ht, -⟩ := exec_next .derive smallMatrix
    rw [ht]; rfl
  · obtain ⟨t, ht, -⟩ := exec_next .derive
      { smallMatrix with
        cfg := { Config.default with matWords := 2048 }
        sponge := countState.sponge
        blkIn := initWithBlock.blkIn
        phase := .done }
    rw [ht]; rfl

theorem witness_ConstantRegisters :
    0x000 ∈ [0x000, 0x008, 0x010, 0x018, 0x020, 0x028, 0x030] ∧
      0x030 ∈ [0x000, 0x008, 0x010, 0x018, 0x020, 0x028, 0x030] := by decide

theorem witness_StatusLayout :
    let s : State := { State.reset with wign := true, err := .alloc, phase := .done }
    s.busy = false := rfl

/-- CMD, IN's first and last words, an unmapped offset, BLK_IN's first and last words. -/
theorem witness_BusyReads :
    let s := countState.withCommand 0x11
    s.busy = true ∧ target s.cfg 0x040 = .cmd ∧ target s.cfg 0x01000000 = .inBuf ∧ target s.cfg 0x01000078 = .inBuf ∧
      target s.cfg 0x01000080 = .unmapped ∧ target s.cfg 0x180 = .blkIn 0 ∧ target s.cfg 0x1D8 = .blkIn 11 := by decide

theorem witness_CmdRegister : countState.busy = false := rfl

/-- A busy block; locked parameters in PHASE 1 and 6; read-only and unmapped offsets at the borders of their ranges. -/
theorem witness_IgnoredWrites :
    (countState.withCommand 0x11).busy = true ∧
    (∀ p ∈ [Phase.absorbing, .wrapUp], let s : State := { inputZ with phase := p }
      s.busy = false ∧ s.phase ≠ .idle ∧ s.phase ≠ .done) ∧
    0x050 ∈ [0x050, 0x058, 0x060, 0x068, 0x070, 0x078] ∧ 0x078 ∈ [0x050, 0x058, 0x060, 0x068, 0x070, 0x078] ∧
    target inputZ.cfg 0x000 = .id ∧ target inputZ.cfg 0x048 = .status ∧ target inputZ.cfg 0x0B8 = .unmapped ∧
    target inputZ.cfg 0x0B0 = .cursor .tau ∧ target inputZ.cfg 0x258 = .blkOut 11 ∧
    target inputZ.cfg 0x260 = .unmapped ∧ target inputZ.cfg 0x02000000 = .outBuf ∧
    target inputZ.cfg 0x020000F8 = .outBuf ∧ target inputZ.cfg 0x02000100 = .unmapped := by decide

/-- The first and last words of IN, OUT and MAT written, and unmapped offsets at the borders. -/
theorem witness_WindowMap :
    let s : State :=
      { State.reset with
        mem := cellsFrom 0x01000000 (leBytes 1) ++ cellsFrom 0x01000078 (leBytes 2) ++ cellsFrom 0x02000000 (leBytes 3) ++
          cellsFrom 0x020000F8 (leBytes 4) ++ cellsFrom 0x8000000000 (leBytes 5) ++ cellsFrom 0x8000001FF8 (leBytes 6) }
    s.cfg.Legal ∧ s.busy = false ∧
      (8 * 0 < s.cfg.inBytes ∧ s.holds (0x01000000 + 8 * 0) (leBytes 1)) ∧
      (8 * 15 < s.cfg.inBytes ∧ s.holds (0x01000000 + 8 * 15) (leBytes 2)) ∧
      (8 * 0 < s.cfg.outBytes ∧ s.holds (0x02000000 + 8 * 0) (leBytes 3)) ∧
      (8 * 31 < s.cfg.outBytes ∧ s.holds (0x02000000 + 8 * 31) (leBytes 4)) ∧
      (0 < s.cfg.matWords ∧ s.holds (0x8000000000 + 8 * 0) (leBytes 5)) ∧
      (1023 < s.cfg.matWords ∧ s.holds (0x8000000000 + 8 * 1023) (leBytes 6)) := by
  simp only [State.holds]
  decide

/-- The unmapped offsets nearest to what is mapped. -/
theorem witness_WindowMap_unmapped :
    ∀ offset ∈ [0x038, 0x0B8, 0x0F8, 0x1E0, 0x1F8, 0x260, 0x00FFFFF8, 0x01000080, 0x01FFFFF8, 0x02000100, 0x7FFFFFFFF8,
        0x8000002000, 0xFFFFFFFFF8],
      offset % 8 = 0 ∧
      (offset = 0x038 ∨ (0x0B8 ≤ offset ∧ offset < 0x100) ∨ (0x1E0 ≤ offset ∧ offset < 0x200) ∨ 0x260 ≤ offset) ∧
      ¬ (0x01000000 ≤ offset ∧ offset < 0x01000000 + Config.default.inBytes) ∧
      ¬ (0x02000000 ≤ offset ∧ offset < 0x02000000 + Config.default.outBytes) ∧
      ¬ (0x8000000000 ≤ offset ∧ offset < 0x8000000000 + 8 * Config.default.matWords) := by decide

theorem witness_ParameterAndCursorReads : inputZ.busy = false := rfl

/-- A parameter register in IDLE and in DONE, at the first and last of its range. -/
theorem witness_WriteThenRead_parameter :
    ∀ p ∈ [Phase.idle, .done], ∀ a ∈ [(0x050, ParamReg.klen), (0x078, .ncols)],
      let s : State := { inputZ with phase := p }
      s.cfg.Legal ∧ s.busy = false ∧ admitted a.1 8 = true ∧ (s.phase = .idle ∨ s.phase = .done) ∧
        target s.cfg a.1 = .param a.2 := by decide

/-- Each other kind of writable offset, at the first and last of its range, in every phase, beside other admitted
offsets. -/
theorem witness_WriteThenRead_data :
    ∀ p ∈ [Phase.idle, .absorbing, .rowInit0, .rowInit1, .setup, .wandering, .wrapUp, .done],
      let s : State := { inputZ with phase := p }
      s.cfg.Legal ∧ s.busy = false ∧
      (∀ a ∈ [0x100, 0x178, 0x180, 0x1D8, 0x01000000, 0x01000078, 0x8000000000, 0x8000001FF8, 0x200, 0xFFFFFFFFF8],
        admitted a 8 = true) ∧
      target s.cfg 0x100 = .sponge 0 ∧ target s.cfg 0x178 = .sponge 15 ∧ target s.cfg 0x180 = .blkIn 0 ∧
      target s.cfg 0x1D8 = .blkIn 11 ∧ target s.cfg 0x01000000 = .inBuf ∧ target s.cfg 0x01000078 = .inBuf ∧
      target s.cfg 0x8000000000 = .mat ∧ target s.cfg 0x8000001FF8 = .mat := by decide

/-- So the premise about parameter registers asks nothing of them. -/
theorem witness_WriteThenRead_no_phase_asked :
    let s : State := { inputZ with phase := .wandering }
    (∃ r, target s.cfg 0x8000000000 = .param r) → s.phase = .idle ∨ s.phase = .done := by
  rintro s ⟨r, hr⟩
  exact absurd hr (by cases r <;> decide)

/-- The first and the last admitted offset; no command in progress, and one whose time has not come. -/
theorem witness_HostReadHasNoSideEffect :
    (let s : State := { countState with host := [.read 0x000 8] }
     s.host = .read 0x000 8 :: [] ∧ 0x000 % 8 = 0 ∧ 0x000 < 2 ^ 40 ∧ engineTurn s = false) ∧
    (let s : State := { countState.withCommand 0x11 with engineDelay := 1, host := [.read 0xFFFFFFFFF8 8, .wait] }
     s.host = .read 0xFFFFFFFFF8 8 :: [.wait] ∧ 0xFFFFFFFFF8 % 8 = 0 ∧ 0xFFFFFFFFF8 < 2 ^ 40 ∧
       engineTurn s = false) := by decide

theorem witness_StepMakesHostWrite :
    (let s : State := { countState with host := [.write 0x000 8 1] }
     s.host = .write 0x000 8 1 :: [] ∧ 0x000 % 8 = 0 ∧ 0x000 < 2 ^ 40 ∧ engineTurn s = false) ∧
    (let s : State := { countState.withCommand 0x11 with engineDelay := 1, host := [.write 0xFFFFFFFFF8 8 1, .wait] }
     s.host = .write 0xFFFFFFFFF8 8 1 :: [.wait] ∧ 0xFFFFFFFFF8 % 8 = 0 ∧ 0xFFFFFFFFF8 < 2 ^ 40 ∧
       engineTurn s = false) := by decide

theorem witness_HardwareReset :
    let s : State := { countState.withCommand 0x11 with phase := .done, engineDelay := 3, host := [.reset, .wait] }
    s.host = .reset :: [.wait] ∧ engineTurn s = false := by decide

theorem witness_ResetMeetsInvariant : ({ Config.default with profile := .ref } : Config).Legal := by decide

theorem witness_StepKeepsInvariant :
    let s := emptyWanderState.withCommand 0x25
    s.Inv ∧ step s = .next (after (step s)) := by
  refine ⟨?_, next_after rfl⟩
  exact { empty_wander_inv with idle_delay := by decide }

theorem witness_StepKeepsStoresCanonical :
    let s : State := { State.reset with host := wr matBase 1, mem := cellsFrom inBase [1, 2] }
    step s = .next (after (step s)) ∧ Memory.wf s.mem := ⟨next_after rfl, wf_cellsFrom _ _⟩

theorem witness_CommandsKeepRegisters :
    let s := countState
    exec .perm s = .next (after (exec .perm s)) ∧ Instr.perm ≠ .duplex ∧ Instr.perm ≠ .duplexR ∧ Instr.perm ≠ .srst ∧
      Instr.perm ≠ .deriveFixed ∧ Instr.perm ≠ .clrerr ∧ 0x01000000 < outBase :=
  ⟨next_after rfl, by decide⟩

end Sys2Proof.Tests
end

section
/-! PROOFS. Which bytes of the stores an operation writes: one relation between two states, composed along every
command. -/

namespace Sys2Proof.Machine

variable {W W' : Nat → Prop} {s t u : State}

/-- From `s` to `t` the configuration is kept, the stores keep their canonical form, and only offsets in `W` are
written. -/
structure WritesOnly (W : Nat → Prop) (s t : State) : Prop where
  cfg : t.cfg = s.cfg
  wf : Memory.wf s.mem → Memory.wf t.mem
  listed : ∀ c ∈ t.mem, c ∈ s.mem ∨ W c.1
  frame : ∀ x, ¬ W x → Memory.byteAt t.mem x = Memory.byteAt s.mem x

/-- An update of other fields writes nothing. -/
theorem WritesOnly.of_mem_eq (hc : t.cfg = s.cfg) (hm : t.mem = s.mem) : WritesOnly W s t where
  cfg := hc
  wf h := hm ▸ h
  listed _ h := .inl (hm ▸ h)
  frame x _ := by rw [hm]

theorem WritesOnly.trans (h : WritesOnly W s t) (h' : WritesOnly W t u) : WritesOnly W s u where
  cfg := h'.cfg.trans h.cfg
  wf hs := h'.wf (h.wf hs)
  listed c hc := (h'.listed c hc).elim (h.listed c) .inr
  frame x hx := (h'.frame x hx).trans (h.frame x hx)

theorem WritesOnly.mono (h : WritesOnly W s t) (hW : ∀ x, W x → W' x) : WritesOnly W' s t where
  cfg := h.cfg
  wf := h.wf
  listed c hc := (h.listed c hc).imp_right (hW c.1)
  frame x hx := h.frame x fun h' => hx (hW x h')

theorem WritesOnly.refl (s : State) : WritesOnly W s s := .of_mem_eq rfl rfl

theorem WritesOnly.nextDraw (h : WritesOnly W s t) : WritesOnly W s t.nextDraw := h.trans (.of_mem_eq rfl rfl)

theorem WritesOnly.setSponge (h : WritesOnly W s t) (S : Sponge) : WritesOnly W s (t.setSponge S) :=
  h.trans (.of_mem_eq rfl rfl)

theorem WritesOnly.setPhase (h : WritesOnly W s t) (p : Phase) : WritesOnly W s (t.setPhase p) :=
  h.trans (.of_mem_eq rfl rfl)

theorem writesOnly_storeBytes {a : Nat} {bs : List Byte} (h : ∀ x, a ≤ x → x < a + bs.length → W x) :
    WritesOnly W s (s.storeBytes a bs) where
  cfg := rfl
  wf hs := wf_store hs a bs
  listed _ hc := (mem_store hc).imp_right fun hc => h _ hc.1 hc.2
  frame x hx := byteAt_store_outside _ _ _ <| by
    by_contra hin
    exact hx (h x (by omega) (by omega))

theorem dataFrame_params (h : dataFrame s t) : t.params = s.params := by
  obtain ⟨S, m, d, rfl⟩ := h
  rfl

theorem dataFrame_cfg (h : dataFrame s t) : t.cfg = s.cfg := by
  obtain ⟨S, m, d, rfl⟩ := h
  rfl

/-- Columns that each write inside `W` do so one after the other; the parameters stay those of the first. -/
theorem writesOnly_foldl {f : State → Nat → State} {n : Nat} (hd : ∀ s c, dataFrame s (f s c))
    (hf : ∀ t c, t.params = s.params → c < n → WritesOnly W t (f t c)) :
    WritesOnly W s ((List.range n).foldl f s) := by
  induction n with
  | zero => exact .of_mem_eq rfl rfl
  | succ n ih =>
    rw [List.range_succ, List.foldl_append]
    have hp := dataFrame_params (dataFrame_foldl hd (List.range n) s)
    exact (ih fun t c hp hc => hf t c hp (by omega)).trans (hf _ n hp (by omega))

/-! ### Rows of the matrix -/

/-- R67: the offset is a byte of row `r`. -/
def State.inRow (s : State) (r x : Nat) : Prop :=
  s.cellAddr r 0 ≤ x ∧ x < s.cellAddr r 0 + 96 * s.params.ncols.toNat

theorem inRow_congr (h : t.params = s.params) (r : Nat) : t.inRow r = s.inRow r := by
  funext x
  simp only [State.inRow, cellAddr_congr h, h]

theorem writesOnly_writeCell {r c : Nat} {b : Block} (hc : c < s.params.ncols.toNat) :
    WritesOnly (s.inRow r) s (s.writeCell r c b) :=
  writesOnly_storeBytes fun x hlo hhi => by
    have := cellAddr_in_row s r hc
    rw [blockBytes_length] at hhi
    exact ⟨by omega, by omega⟩

theorem writesOnly_xorCell {r c : Nat} {b : Block} (hc : c < s.params.ncols.toNat) :
    WritesOnly (s.inRow r) s (s.xorCell r c b) :=
  (writesOnly_writeCell hc).nextDraw

theorem writesOnly_duplexRows (prev rowa c : Nat) : WritesOnly W s (duplexRows s prev rowa c).1 :=
  (WritesOnly.refl s).nextDraw.nextDraw.setSponge _

/-- The mirrored column of a column is a column. -/
theorem mirror_lt {C c : Nat} (h : c < C) : C - 1 - c < C := by omega

theorem row0Column_writes {i : Nat} (hi : i < s.params.ncols.toNat) : WritesOnly (s.inRow 0) s (row0Column s i) :=
  (writesOnly_writeCell (mirror_lt hi)).setSponge _

theorem row1Column_writes {c : Nat} (hc : c < s.params.ncols.toNat) : WritesOnly (s.inRow 1) s (row1Column s c) := by
  have hw (S : Sponge) (b : Block) : WritesOnly (s.inRow 1) s
      ((s.nextDraw.setSponge S).writeCell 1 (s.params.ncols.toNat - 1 - c) b) := by
    have hp : (s.nextDraw.setSponge S).params = s.params := rfl
    refine ((WritesOnly.refl s).nextDraw.setSponge S).trans ?_
    rw [← inRow_congr hp]
    exact writesOnly_writeCell (mirror_lt hc)
  exact hw _ _

/-- The two cells a column of M_SETUP_ROW or M_WANDER_ROW writes lie in two rows. -/
theorem WritesOnly.then_xorCell {row rowa c : Nat} {b : Block} (hc : c < s.params.ncols.toNat)
    (hp : t.params = s.params) (h : WritesOnly (s.inRow row) s t) :
    WritesOnly (fun x => s.inRow row x ∨ s.inRow rowa x) s (t.xorCell rowa c b) :=
  (h.mono fun _ => .inl).trans
    ((writesOnly_xorCell (hp ▸ hc)).mono fun x hx => .inr (by rwa [inRow_congr hp] at hx))

theorem setupColumn_writes {row prev rowa c : Nat} (hc : c < s.params.ncols.toNat) :
    WritesOnly (fun x => s.inRow row x ∨ s.inRow rowa x) s (setupColumn row prev rowa s c) := by
  have hw (t : State) (b b' : Block) (hp : t.params = s.params) :
      WritesOnly (fun x => s.inRow row x ∨ s.inRow rowa x) t
        ((t.writeCell row (s.params.ncols.toNat - 1 - c) b).xorCell rowa c b') := by
    rw [← hp] at hc
    simp only [← inRow_congr hp, ← hp]
    exact WritesOnly.then_xorCell hc rfl (writesOnly_writeCell (mirror_lt hc))
  exact (writesOnly_duplexRows prev rowa c).trans
    (hw _ _ _ (dataFrame_params (dataFrame_duplexRows s prev rowa c)))

theorem wanderColumn_writes {row prev rowa c : Nat} (hc : c < s.params.ncols.toNat) :
    WritesOnly (fun x => s.inRow row x ∨ s.inRow rowa x) s (wanderColumn row prev rowa s c) := by
  have hw (t : State) (b b' : Block) (hp : t.params = s.params) :
      WritesOnly (fun x => s.inRow row x ∨ s.inRow rowa x) t ((t.xorCell row c b).xorCell rowa c b') := by
    rw [← hp] at hc
    simp only [← inRow_congr hp]
    exact WritesOnly.then_xorCell hc rfl (writesOnly_xorCell hc)
  exact (writesOnly_duplexRows prev rowa c).trans
    (hw _ _ _ (dataFrame_params (dataFrame_duplexRows s prev rowa c)))

/-! ### Squeezing to OUT -/

theorem squeezeBlocks_length (rot : Rot) (q : Nat) (S : Sponge) : (squeezeBlocks rot q S).2.length = 96 * q := by
  induction q generalizing S with
  | zero => rfl
  | succ q ih => simp only [squeezeBlocks, List.length_append, blockBytes_length, ih]; omega

/-- R121: a squeeze of `n` gives `n` bytes. -/
theorem squeeze_length (rot : Rot) (S : Sponge) (n : Nat) : (squeeze rot S n).2.length = n := by
  simp only [squeeze, List.length_append, squeezeBlocks_length, List.length_take, blockBytes_length]
  omega

theorem squeezeToOut_writes (n : Nat) :
    WritesOnly (fun x => outBase ≤ x ∧ x < outBase + n) s (s.squeezeToOut n) :=
  ((WritesOnly.refl s).setSponge _).trans
    (writesOnly_storeBytes fun x hlo hhi => by rw [squeeze_length] at hhi; exact ⟨hlo, hhi⟩)

/-! ### What each phase command leaves: its columns, then PHASE and the cursors -/

/-- PHASE and the cursors written together. -/
def State.moveTo (s : State) (n : Phase × Cursor) : State := { s with phase := n.1, cursor := n.2 }

/-- The columns 0 .. C-1 of a row, one after the other. -/
def State.columns (s : State) (f : State → Nat → State) : State := (List.range s.params.ncols.toNat).foldl f s

/-- R153: PHASE and cursor after M_ROW1. -/
def afterRow1 (q : Params) (k : Cursor) : Phase × Cursor :=
  if 2 < q.nrows.toNat then (.setup, k) else afterEnterWandering q k

/-- R154: PHASE and cursor after a Setup row begun in phase `p`. -/
def afterSetupRow (q : Params) (p : Phase) (k : Cursor) : Phase × Cursor :=
  if (nextSetupCursor k).row = q.nrows then afterEnterWandering q (nextSetupCursor k) else (p, nextSetupCursor k)

/-- R156: PHASE and cursor after a Wandering row visit begun in phase `p` whose row* is `rowa`. -/
def afterWanderRow (q : Params) (p : Phase) (rowa : Nat) (k : Cursor) : Phase × Cursor :=
  let k' := nextWanderCursor q.nrows.toNat q.tcost rowa k
  (if k'.row = 0 ∧ k.tau = q.tcost then .wrapUp else p, k')

theorem row0Body_eq (s : State) : row0Body s = (s.columns row0Column).moveTo (.rowInit1, s.cursor) := by
  obtain ⟨S, m, d, h⟩ := dataFrame_foldl row0Column_frame (List.range s.params.ncols.toNat) s
  simp only [row0Body, State.columns, h]
  rfl

theorem row1Body_eq (s : State) : row1Body s = (s.columns row1Column).moveTo (afterRow1 s.params s.cursor) := by
  obtain ⟨S, m, d, h⟩ := dataFrame_foldl row1Column_frame (List.range s.params.ncols.toNat) s
  simp only [row1Body, State.columns, h, enterWandering_eq, afterRow1]
  split <;> rfl

theorem setupRowBody_eq (s : State) :
    setupRowBody s =
      (s.columns (setupColumn s.cursor.row.toNat s.cursor.prev.toNat s.cursor.rowa.toNat)).moveTo
        (afterSetupRow s.params s.phase s.cursor) := by
  obtain ⟨S, m, d, h⟩ := dataFrame_foldl
    (setupColumn_frame s.cursor.row.toNat s.cursor.prev.toNat s.cursor.rowa.toNat)
    (List.range s.params.ncols.toNat) s
  simp only [setupRowBody, State.columns, h, enterWandering_eq, afterSetupRow, State.setCursor_cursor]
  split <;> rfl

theorem wanderRowBody_eq (s : State) :
    wanderRowBody s =
      (s.columns (wanderColumn s.cursor.row.toNat s.cursor.prev.toNat s.wanderRowa)).moveTo
        (afterWanderRow s.params s.phase s.wanderRowa s.cursor) := by
  obtain ⟨S, m, d, h⟩ := dataFrame_foldl
    (wanderColumn_frame s.cursor.row.toNat s.cursor.prev.toNat s.wanderRowa) (List.range s.params.ncols.toNat) s
  simp only [wanderRowBody, State.columns, h, afterWanderRow, State.setCursor_cursor]
  split <;> rfl

theorem columns_frame {f : State → Nat → State} (hd : ∀ s c, dataFrame s (f s c)) (s : State) :
    dataFrame s (s.columns f) :=
  dataFrame_foldl hd _ s

theorem row0Columns_writes (s : State) : WritesOnly (s.inRow 0) s (s.columns row0Column) :=
  writesOnly_foldl row0Column_frame fun _ _ hp hc => inRow_congr hp 0 ▸ row0Column_writes (hp ▸ hc)

theorem row1Columns_writes (s : State) : WritesOnly (s.inRow 1) s (s.columns row1Column) :=
  writesOnly_foldl row1Column_frame fun _ _ hp hc => inRow_congr hp 1 ▸ row1Column_writes (hp ▸ hc)

theorem setupColumns_writes (row prev rowa : Nat) (s : State) :
    WritesOnly (fun x => s.inRow row x ∨ s.inRow rowa x) s (s.columns (setupColumn row prev rowa)) :=
  writesOnly_foldl (setupColumn_frame row prev rowa) fun _ _ hp hc => by
    simp only [← inRow_congr hp]
    exact setupColumn_writes (hp ▸ hc)

theorem wanderColumns_writes (row prev rowa : Nat) (s : State) :
    WritesOnly (fun x => s.inRow row x ∨ s.inRow rowa x) s (s.columns (wanderColumn row prev rowa)) :=
  writesOnly_foldl (wanderColumn_frame row prev rowa) fun _ _ hp hc => by
    simp only [← inRow_congr hp]
    exact wanderColumn_writes (hp ▸ hc)

theorem WritesOnly.moveTo (h : WritesOnly W s t) (n : Phase × Cursor) : WritesOnly W s (t.moveTo n) :=
  h.trans (.of_mem_eq rfl rfl)

theorem wrapupBody_writes (s : State) :
    WritesOnly (fun x => outBase ≤ x ∧ x < outBase + s.params.klen.toNat) s (wrapupBody s) :=
  (((WritesOnly.refl s).nextDraw.setSponge _).trans (squeezeToOut_writes s.params.klen.toNat)).setPhase .done

end Sys2Proof.Machine
end

section
/-! PROOFS. The parameters a derivation runs with (R140) and the cursor in each of its phases (R150, R155, R156, R158). -/

namespace Sys2Proof.Machine

/-- R140, R210: what validated parameters satisfy. -/
theorem validate_eq_none_iff (cfg : Config) (q : Params) :
    validate cfg q = none ↔
      (2 ≤ q.nrows.toNat ∧ q.nrows.toNat ≤ 65535) ∧ (1 ≤ q.ncols.toNat ∧ q.ncols.toNat ≤ 65535) ∧
        q.klen.toNat ≤ cfg.outBytes ∧ q.inputLength ≤ cfg.inBytes ∧
        padLen cfg q.inputLength ≤ 96 * q.ncols.toNat ∧ q.nrows.toNat * q.ncols.toNat * 12 ≤ cfg.matWords := by
  unfold validate
  split_ifs <;> simp <;> omega

/-- What a two's-complement register holds of an integer that fits it (R8). -/
theorem toInt_ofInt_of_fits {z : Int} (h : -65536 ≤ z) (h' : z ≤ 65536) : (BitVec.ofInt 64 z).toInt = z :=
  BitVec.toInt_ofInt_eq_self (by decide) (by omega) (by omega)

theorem toNat_ofNat_of_fits {n : Nat} (h : n < 2 ^ 64) : (BitVec.ofNat 64 n).toNat = n := by
  rw [BitVec.toNat_ofNat, Nat.mod_eq_of_lt h]

/-- R139: a stride on `R` rows fits its register. -/
theorem wStep_toInt {R : Nat} (hR : R ≤ 65535) (n : Nat) : (BitVec.ofInt 64 (wStep R n)).toInt = wStep R n := by
  apply toInt_ofInt_of_fits <;> unfold wStep <;> split <;> omega

/-! ### Setup rows (R154, R155) -/

/-- R154: ROWA after a Setup row. -/
def setupRowa (k : Cursor) : Nat := ((k.rowa.toNat : Int) + k.step.toInt).toNat &&& (k.window.toNat - 1)

variable {R : Nat} {k : Cursor}

@[simp] theorem nextSetupCursor_row (k : Cursor) : (nextSetupCursor k).row = BitVec.ofNat 64 (k.row.toNat + 1) := by
  unfold nextSetupCursor
  dsimp only
  split <;> rfl

@[simp] theorem nextSetupCursor_prev (k : Cursor) : (nextSetupCursor k).prev = k.row := by
  unfold nextSetupCursor
  dsimp only
  split <;> rfl

@[simp] theorem nextSetupCursor_rowa (k : Cursor) : (nextSetupCursor k).rowa = BitVec.ofNat 64 (setupRowa k) := by
  unfold nextSetupCursor
  dsimp only
  split <;> rfl

/-- R154: while ROWA has not returned to 0 the window stays. -/
theorem nextSetupCursor_of_ne_zero (h : setupRowa k ≠ 0) :
    (nextSetupCursor k).step = k.step ∧ (nextSetupCursor k).window = k.window ∧ (nextSetupCursor k).gap = k.gap := by
  unfold nextSetupCursor
  dsimp only
  rw [if_neg (by exact h)]
  exact ⟨rfl, rfl, rfl⟩

/-- R154: when ROWA returns to 0 the window doubles. -/
theorem nextSetupCursor_of_eq_zero (h : setupRowa k = 0) :
    (nextSetupCursor k).step = BitVec.ofInt 64 ((k.window.toNat : Int) + k.gap.toInt) ∧
      (nextSetupCursor k).window = BitVec.ofNat 64 (2 * k.window.toNat) ∧
      (nextSetupCursor k).gap = BitVec.ofInt 64 (-k.gap.toInt) := by
  unfold nextSetupCursor
  dsimp only
  rw [if_pos (by exact h)]
  exact ⟨rfl, rfl, rfl⟩

/-- R155: ROWA runs through the multiples of STEP modulo WINDOW. -/
theorem SetupCursor.setupRowa_eq (h : SetupCursor R k) :
    (setupRowa k : Int) = (k.step.toInt * ((k.row.toNat : Int) + 1 - k.window.toNat)) % k.window.toNat := by
  obtain ⟨j, -, hj⟩ := h.window_pow
  have hpos := h.step_pos
  have hcast : ((setupRowa k : Nat) : Int) = ((k.rowa.toNat : Int) + k.step.toInt) % k.window.toNat := by
    rw [setupRowa, hj, Nat.and_two_pow_sub_one_eq_mod, Int.natCast_mod, Int.toNat_of_nonneg (by omega)]
  rw [hcast, h.rowa_eq, Int.emod_add_emod]
  congr 1
  ring

theorem SetupCursor.setupRowa_lt (h : SetupCursor R k) : setupRowa k < k.window.toNat := by
  obtain ⟨j, -, hj⟩ := h.window_pow
  rw [setupRowa, hj, Nat.and_two_pow_sub_one_eq_mod]
  exact Nat.mod_lt _ (by positivity)

/-- R155: STEP being odd and WINDOW a power of two, ROWA returns to 0 exactly when ROW + 1 is the next power of two. -/
theorem SetupCursor.setupRowa_eq_zero_iff (h : SetupCursor R k) :
    setupRowa k = 0 ↔ k.row.toNat + 1 = 2 * k.window.toNat := by
  have heq := h.setupRowa_eq
  constructor
  · intro hz
    obtain ⟨j, -, hj⟩ := h.window_pow
    have hodd : IsCoprime (2 : Int) k.step.toInt := ⟨-(k.step.toInt / 2), 1, by have := h.step_odd; omega⟩
    have hcop : IsCoprime (k.window.toNat : Int) k.step.toInt := by
      rw [hj]
      exact_mod_cast hodd.pow_left
    have hdvd : (k.window.toNat : Int) ∣ (k.row.toNat : Int) + 1 - k.window.toNat :=
      hcop.dvd_of_dvd_mul_left (Int.dvd_of_emod_eq_zero (by rw [← heq, hz]; rfl))
    have hle := Int.le_of_dvd (by have := h.window_le; omega) hdvd
    have := h.row_lt_window
    omega
  · intro hrow
    have hdiff : (k.row.toNat : Int) + 1 - k.window.toNat = k.window.toNat := by omega
    rw [hdiff, Int.mul_emod_left] at heq
    omega

/-- R155: every Setup row but the last leaves a Setup cursor. -/
theorem SetupCursor.next (h : SetupCursor R k) (hR : R ≤ 65535) (hrow : k.row.toNat + 1 < R) :
    SetupCursor R (nextSetupCursor k) := by
  have hrow' : (nextSetupCursor k).row.toNat = k.row.toNat + 1 := by
    rw [nextSetupCursor_row, toNat_ofNat_of_fits (by omega)]
  have hrowa : (nextSetupCursor k).rowa.toNat = setupRowa k := by
    rw [nextSetupCursor_rowa, toNat_ofNat_of_fits (by have := h.setupRowa_lt; have := k.window.isLt; omega)]
  have hlt := h.setupRowa_lt
  have hzero := h.setupRowa_eq_zero_iff
  have heq := h.setupRowa_eq
  obtain ⟨⟨j, hj1, hj⟩, hwle, hrw, hrR, hprev, hrowalt, hgap, hodd, hpos, hle, -⟩ := h
  have hw2 : k.window.toNat % 2 = 0 ∧ 2 ≤ k.window.toNat := by
    obtain ⟨i, rfl⟩ : ∃ i, j = i + 1 := ⟨j - 1, by omega⟩
    have : 0 < 2 ^ i := by positivity
    rw [hj, pow_succ]
    omega
  by_cases hz : setupRowa k = 0
  · obtain ⟨hstep', hwindow', hgap'⟩ := nextSetupCursor_of_eq_zero hz
    have hend := hzero.1 hz
    have hw14 : k.window.toNat ≤ 16384 := by
      have : j < 15 := (Nat.pow_lt_pow_iff_right (by decide : 1 < 2)).1 (by rw [← hj]; omega)
      rw [hj]
      exact Nat.pow_le_pow_right (by decide) (by omega : j ≤ 14)
    have hw : (nextSetupCursor k).window.toNat = 2 * k.window.toNat := by
      rw [hwindow', toNat_ofNat_of_fits (by omega)]
    have hs : (nextSetupCursor k).step.toInt = k.window.toNat + k.gap.toInt := by
      rw [hstep', toInt_ofInt_of_fits (by omega) (by omega)]
    have hg : (nextSetupCursor k).gap.toInt = -k.gap.toInt := by
      rw [hgap', toInt_ofInt_of_fits (by omega) (by omega)]
    constructor
    case window_pow => exact ⟨j + 1, by omega, by rw [hw, hj, pow_succ]; omega⟩
    case rowa_eq =>
      rw [hrowa, hz, hrow', hw, hs]
      have : ((k.row.toNat + 1 : Nat) : Int) - (2 * k.window.toNat : Nat) = 0 := by omega
      rw [this, mul_zero, Int.zero_emod]
      rfl
    all_goals simp only [hrow', hrowa, hw, hs, hg, nextSetupCursor_prev]
    all_goals omega
  · obtain ⟨hs, hw, hg⟩ := nextSetupCursor_of_ne_zero hz
    constructor
    case window_pow => exact ⟨j, hj1, by rw [hw, hj]⟩
    case rowa_eq =>
      rw [hrowa, hrow', hw, hs, heq]
      push_cast
      rfl
    all_goals simp only [hrow', hrowa, hw, hs, hg, nextSetupCursor_prev]
    all_goals omega

/-- R150: M_START's cursor is a Setup cursor of every matrix with Setup rows. -/
theorem setupCursor_start (hR : 3 ≤ R) : SetupCursor R startCursor where
  window_pow := ⟨1, by decide⟩
  window_le := by decide
  row_lt_window := by decide
  row_lt := hR
  prev_row := by decide
  rowa_lt := by decide
  gap_unit := by decide
  step_odd := by decide
  step_pos := by decide
  step_le := by decide
  rowa_eq := by decide

/-! ### Wandering visits (R156) -/

@[simp] theorem nextWanderCursor_rowa (R : Nat) (T : Word) (rowa : Nat) (k : Cursor) :
    (nextWanderCursor R T rowa k).rowa = BitVec.ofNat 64 rowa := by
  unfold nextWanderCursor
  dsimp only
  split <;> rfl

@[simp] theorem nextWanderCursor_prev (R : Nat) (T : Word) (rowa : Nat) (k : Cursor) :
    (nextWanderCursor R T rowa k).prev = k.row := by
  unfold nextWanderCursor
  dsimp only
  split <;> rfl

@[simp] theorem nextWanderCursor_row (R : Nat) (T : Word) (rowa : Nat) (k : Cursor) :
    (nextWanderCursor R T rowa k).row = BitVec.ofNat 64 (emod ((k.row.toNat : Int) + k.step.toInt) R) := by
  unfold nextWanderCursor
  dsimp only
  split <;> rfl

@[simp] theorem nextWanderCursor_window (R : Nat) (T : Word) (rowa : Nat) (k : Cursor) :
    (nextWanderCursor R T rowa k).window = k.window := by
  unfold nextWanderCursor
  dsimp only
  split <;> rfl

@[simp] theorem nextWanderCursor_gap (R : Nat) (T : Word) (rowa : Nat) (k : Cursor) :
    (nextWanderCursor R T rowa k).gap = k.gap := by
  unfold nextWanderCursor
  dsimp only
  split <;> rfl

/-- R156: ROW back at 0 before the last pass begins the next one. -/
theorem nextWanderCursor_next_pass {T : Word} {rowa : Nat} (h : (nextWanderCursor R T rowa k).row = 0)
    (hT : k.tau ≠ T) :
    (nextWanderCursor R T rowa k).tau = BitVec.ofNat 64 (k.tau.toNat + 1) ∧
      (nextWanderCursor R T rowa k).step = BitVec.ofInt 64 (wStep R (k.tau.toNat + 1)) := by
  rw [nextWanderCursor_row] at h
  unfold nextWanderCursor
  dsimp only
  rw [if_pos ⟨h, hT⟩]
  exact ⟨rfl, rfl⟩

/-- R156: otherwise the pass goes on, or it was the last. -/
theorem nextWanderCursor_same_pass {T : Word} {rowa : Nat} (h : (nextWanderCursor R T rowa k).row ≠ 0 ∨ k.tau = T) :
    (nextWanderCursor R T rowa k).tau = k.tau ∧ (nextWanderCursor R T rowa k).step = k.step := by
  rw [nextWanderCursor_row] at h
  unfold nextWanderCursor
  dsimp only
  rw [if_neg (by tauto)]
  exact ⟨rfl, rfl⟩

/-- R156: the next ROW, a row of the matrix. -/
theorem nextWanderCursor_row_toNat (hR : 0 < R) (hR' : R < 2 ^ 64) (T : Word) (rowa : Nat) (k : Cursor) :
    (nextWanderCursor R T rowa k).row.toNat = emod ((k.row.toNat : Int) + k.step.toInt) R := by
  rw [nextWanderCursor_row, toNat_ofNat_of_fits ((emod_lt _ hR).trans hR')]

/-- The next pass is at most the last (R156). -/
theorem WanderCursor.tau_lt {T : Word} (h : WanderCursor R T k) (hT : k.tau ≠ T) : k.tau.toNat < T.toNat :=
  lt_of_le_of_ne h.tau_le fun he => hT (BitVec.eq_of_toNat_eq he)

/-- R156: every visit but the last leaves a Wandering cursor. -/
theorem WanderCursor.next {T : Word} {rowa : Nat} (h : WanderCursor R T k) (hR : R ≤ 65535)
    (hgo : (nextWanderCursor R T rowa k).row ≠ 0 ∨ k.tau ≠ T) : WanderCursor R T (nextWanderCursor R T rowa k) := by
  have hpos : 0 < R := Nat.zero_lt_of_lt h.row_lt
  have hrow : (nextWanderCursor R T rowa k).row.toNat < R := by
    rw [nextWanderCursor_row_toNat hpos (by omega)]
    exact emod_lt _ hpos
  have hprev : (nextWanderCursor R T rowa k).prev.toNat < R := by
    rw [nextWanderCursor_prev]
    exact h.row_lt
  by_cases hnew : (nextWanderCursor R T rowa k).row = 0 ∧ k.tau ≠ T
  · obtain ⟨htau, hstep⟩ := nextWanderCursor_next_pass hnew.1 hnew.2
    have hlt := h.tau_lt hnew.2
    have htau' : (nextWanderCursor R T rowa k).tau.toNat = k.tau.toNat + 1 := by
      rw [htau, toNat_ofNat_of_fits (by have := T.isLt; omega)]
    exact ⟨hrow, hprev, by omega, by omega, by rw [htau', hstep, wStep_toInt hR]⟩
  · obtain ⟨htau, hstep⟩ := nextWanderCursor_same_pass (R := R) (T := T) (rowa := rowa) (k := k) (by tauto)
    exact ⟨hrow, hprev, htau ▸ h.tau_pos, htau ▸ h.tau_le, by rw [hstep, htau, h.step_eq]⟩

/-! ### The cursor in each phase -/

/-- The cursor the invariant asks for in phase `p` (R150, R155, R156, R158). -/
def cursorFits (q : Params) (p : Phase) (k : Cursor) : Prop :=
  match p with
  | .idle | .done => True
  | .absorbing | .rowInit0 | .rowInit1 => k = startCursor
  | .setup => SetupCursor q.nrows.toNat k
  | .wandering => WanderCursor q.nrows.toNat q.tcost k
  | .wrapUp => k.rowa.toNat < q.nrows.toNat

/-- The four cursor clauses of the invariant are one. -/
theorem State.Inv.cursorFits {s : State} (h : s.Inv) : cursorFits s.params s.phase s.cursor := by
  unfold Machine.cursorFits
  split
  case h_1 | h_2 => trivial
  case h_3 hp => exact h.start (.inl hp)
  case h_4 hp => exact h.start (.inr (.inl hp))
  case h_5 hp => exact h.start (.inr (.inr hp))
  case h_6 hp => exact h.setup hp
  case h_7 hp => exact h.wandering hp
  case h_8 hp => exact h.wrapUp hp

section Moves

variable {cfg : Config} {q : Params} (hv : validate cfg q = none)
include hv

theorem afterEnterWandering_fits (hprev : k.prev.toNat < q.nrows.toNat) (hrowa : k.rowa.toNat < q.nrows.toNat) :
    cursorFits q (afterEnterWandering q k).1 (afterEnterWandering q k).2 := by
  obtain ⟨⟨hR2, hR⟩, -⟩ := (validate_eq_none_iff cfg q).1 hv
  unfold afterEnterWandering
  split
  · exact hrowa
  next hT =>
    have hT' : q.tcost.toNat ≠ 0 := fun h => hT (BitVec.eq_of_toNat_eq h)
    have htau : (1 : Word).toNat = 1 := rfl
    have hrow : (0 : Word).toNat = 0 := rfl
    exact ⟨by dsimp only; omega, hprev, by dsimp only; omega, by dsimp only; omega, wStep_toInt hR 1⟩

theorem afterRow1_fits (h : k = startCursor) : cursorFits q (afterRow1 q k).1 (afterRow1 q k).2 := by
  obtain ⟨⟨hR2, -⟩, -⟩ := (validate_eq_none_iff cfg q).1 hv
  subst h
  unfold afterRow1
  split
  next hR => exact setupCursor_start hR
  · exact afterEnterWandering_fits hv (show 1 < _ by omega) (show 0 < _ by omega)

theorem afterSetupRow_fits (h : SetupCursor q.nrows.toNat k) :
    cursorFits q (afterSetupRow q .setup k).1 (afterSetupRow q .setup k).2 := by
  obtain ⟨⟨-, hR⟩, -⟩ := (validate_eq_none_iff cfg q).1 hv
  have hrow := h.row_lt
  have hrow' : (nextSetupCursor k).row.toNat = k.row.toNat + 1 := by
    rw [nextSetupCursor_row, toNat_ofNat_of_fits (by omega)]
  unfold afterSetupRow
  split
  · have hlt := h.setupRowa_lt
    have hle := h.window_le
    refine afterEnterWandering_fits hv (by rwa [nextSetupCursor_prev]) ?_
    rw [nextSetupCursor_rowa, toNat_ofNat_of_fits (by omega)]
    omega
  next hne =>
    have hne' : (nextSetupCursor k).row.toNat ≠ q.nrows.toNat := fun he => hne (BitVec.eq_of_toNat_eq he)
    exact h.next hR (by omega)

theorem afterWanderRow_fits {rowa : Nat} (h : WanderCursor q.nrows.toNat q.tcost k) (hrowa : rowa < q.nrows.toNat) :
    cursorFits q (afterWanderRow q .wandering rowa k).1 (afterWanderRow q .wandering rowa k).2 := by
  obtain ⟨⟨-, hR⟩, -⟩ := (validate_eq_none_iff cfg q).1 hv
  unfold afterWanderRow
  dsimp only
  split
  · change (nextWanderCursor _ _ _ _).rowa.toNat < _
    rwa [nextWanderCursor_rowa, toNat_ofNat_of_fits (by omega)]
  next hgo => exact h.next hR (by tauto)

end Moves

end Sys2Proof.Machine
end

section
/-! PROOFS. What a derivation keeps, from M_START to M_WRAPUP and in DERIVE: it writes OUT[0 .. KLEN-1] and the R·C·12
words of the matrix alone, and its cursor fits its phase. -/

namespace Sys2Proof.Machine

variable {s t u : State}

/-- R79: the bytes a derivation with parameters `q` writes. -/
def derivationByte (q : Params) (x : Nat) : Prop :=
  (outBase ≤ x ∧ x < outBase + q.klen.toNat) ∨
    (matBase ≤ x ∧ x < matBase + 8 * (q.nrows.toNat * q.ncols.toNat * 12))

/-- R79: they lie inside OUT and MAT. -/
theorem storeOffset_of_derivationByte {cfg : Config} {q : Params} (hv : validate cfg q = none) {x : Nat}
    (hx : derivationByte q x) : storeOffset cfg x := by
  obtain ⟨-, -, hkey, -, -, hmat⟩ := (validate_eq_none_iff cfg q).1 hv
  rcases hx with hx | hx
  · exact .inr (.inl (by omega))
  · exact .inr (.inr (by omega))

/-- R67: a row of the matrix. -/
theorem derivationByte_of_inRow {r x : Nat} (hr : r < s.params.nrows.toNat) (hx : s.inRow r x) :
    derivationByte s.params x := by
  unfold State.inRow at hx
  rw [cellAddr_row] at hx
  have hrows : 96 * s.params.ncols.toNat * (r + 1) ≤ 96 * s.params.ncols.toNat * s.params.nrows.toNat :=
    Nat.mul_le_mul_left _ hr
  have hsize : 8 * (s.params.nrows.toNat * s.params.ncols.toNat * 12) =
      96 * s.params.ncols.toNat * s.params.nrows.toNat := by ring
  rw [Nat.mul_add_one] at hrows
  exact .inr (by omega)

/-- `t` is a state a derivation begun in `s` can come to. -/
structure DerivesTo (s t : State) : Prop where
  frame : phaseFrame s t
  writes : WritesOnly (derivationByte s.params) s t
  fits : cursorFits s.params t.phase t.cursor

theorem DerivesTo.params (h : DerivesTo s t) : t.params = s.params := by
  obtain ⟨S, m, d, p, k, rfl⟩ := h.frame
  rfl

theorem State.Inv.derivesTo_self (h : s.Inv) : DerivesTo s s where
  frame := phaseFrame_refl s
  writes := .refl s
  fits := h.cursorFits

theorem derivesTo_start (s : State) : DerivesTo s (startBody s) where
  frame := startBody_frame s
  writes := .of_mem_eq rfl rfl
  fits := rfl

theorem DerivesTo.absorb (h : DerivesTo s t) (hp : t.phase = .absorbing) : DerivesTo s (absorbBody t) where
  frame := phaseFrame_trans h.frame (absorbBody_frame t)
  writes := ((h.writes.nextDraw).setSponge _).setPhase _
  fits := by
    have := h.fits
    rw [hp] at this
    exact this

/-- The columns of a row visit, then PHASE and the cursors. -/
theorem DerivesTo.columns_moveTo {W : Nat → Prop} {f : State → Nat → State} {n : Phase × Cursor} (h : DerivesTo s t)
    (hd : ∀ s c, dataFrame s (f s c)) (hw : WritesOnly W t (t.columns f)) (hW : ∀ x, W x → derivationByte t.params x)
    (hn : cursorFits s.params n.1 n.2) : DerivesTo s ((t.columns f).moveTo n) where
  frame := phaseFrame_trans (phaseFrame_trans h.frame (phaseFrame_of_dataFrame (columns_frame hd t)))
    ⟨_, _, _, n.1, n.2, rfl⟩
  writes := (h.writes.trans (hw.mono fun x hx => h.params ▸ hW x hx)).moveTo n
  fits := hn

theorem DerivesTo.wrapup (h : DerivesTo s t) : DerivesTo s (wrapupBody t) where
  frame := phaseFrame_trans h.frame (wrapupBody_frame t)
  writes := h.writes.trans ((wrapupBody_writes t).mono fun _ hx => .inl (h.params ▸ hx))
  fits := trivial

/-- R180: a loop of row visits. -/
theorem DerivesTo.whilePhase {p : Phase} {body : State → State}
    (hb : ∀ t, DerivesTo s t → t.phase = p → DerivesTo s (body t)) (n : Nat) (h : DerivesTo s t) :
    DerivesTo s (whilePhase p body n t) := by
  induction n generalizing t with
  | zero => exact h
  | succ n ih =>
    rw [Machine.whilePhase]
    split
    next hp => exact ih (hb t h hp)
    · exact h

section Valid

variable (hv : validate s.cfg s.params = none)
include hv

theorem DerivesTo.row0 (h : DerivesTo s t) (hp : t.phase = .rowInit0) : DerivesTo s (row0Body t) := by
  obtain ⟨⟨hR, -⟩, -⟩ := (validate_eq_none_iff _ _).1 hv
  have hfit := h.fits
  rw [hp] at hfit
  rw [row0Body_eq]
  refine h.columns_moveTo row0Column_frame (row0Columns_writes t) (fun x => derivationByte_of_inRow ?_) hfit
  rw [h.params]
  omega

theorem DerivesTo.row1 (h : DerivesTo s t) (hp : t.phase = .rowInit1) : DerivesTo s (row1Body t) := by
  obtain ⟨⟨hR, -⟩, -⟩ := (validate_eq_none_iff _ _).1 hv
  have hfit := h.fits
  rw [hp] at hfit
  rw [row1Body_eq, h.params]
  refine h.columns_moveTo row1Column_frame (row1Columns_writes t) (fun x => derivationByte_of_inRow ?_)
    (afterRow1_fits hv hfit)
  rw [h.params]
  omega

theorem DerivesTo.setupRow (h : DerivesTo s t) (hp : t.phase = .setup) : DerivesTo s (setupRowBody t) := by
  have hfit := h.fits
  rw [hp] at hfit
  have hrow : t.cursor.row.toNat < t.params.nrows.toNat := h.params ▸ hfit.row_lt
  have hrowa : t.cursor.rowa.toNat < t.params.nrows.toNat := by
    have := hfit.rowa_lt
    have := hfit.prev_row
    omega
  rw [setupRowBody_eq, h.params, hp]
  exact h.columns_moveTo (setupColumn_frame _ _ _) (setupColumns_writes _ _ _ t)
    (fun _ hx => hx.elim (derivationByte_of_inRow hrow) (derivationByte_of_inRow hrowa)) (afterSetupRow_fits hv hfit)

theorem DerivesTo.wanderRow (h : DerivesTo s t) (hp : t.phase = .wandering) : DerivesTo s (wanderRowBody t) := by
  have hfit := h.fits
  rw [hp] at hfit
  have hrow : t.cursor.row.toNat < t.params.nrows.toNat := h.params ▸ hfit.row_lt
  have hrowa : t.wanderRowa < t.params.nrows.toNat := emod_lt _ (by omega)
  rw [wanderRowBody_eq, h.params, hp]
  exact h.columns_moveTo (wanderColumn_frame _ _ _) (wanderColumns_writes _ _ _ t)
    (fun _ hx => hx.elim (derivationByte_of_inRow hrow) (derivationByte_of_inRow hrowa))
    (afterWanderRow_fits hv hfit (h.params ▸ hrowa))

/-- R180: the whole derivation. -/
theorem derivesTo_deriveRun : DerivesTo s (deriveRun s) := by
  have hrow0 := ((derivesTo_start s).absorb rfl).row0 hv rfl
  have hrow1 := hrow0.row1 hv (by rw [row0Body_eq]; rfl)
  exact ((hrow1.whilePhase (fun _ h => h.setupRow hv) _).whilePhase (fun _ h => h.wanderRow hv) _).wrapup

end Valid

/-! ### DERIVE_FIXED (R182) -/

/-- R182, R7: the fixed parameters pass validation on a legal configuration. -/
theorem validate_fixedParams {cfg : Config} (h : cfg.Legal) : validate cfg (fixedParams cfg) = none := by
  obtain ⟨⟨hmat, -⟩, ⟨-, hin, -⟩, ⟨-, hout, -⟩, ⟨hC2, hC⟩, -⟩ := h
  have hcols : (fixedParams cfg).ncols.toNat = cfg.fixedC := toNat_ofNat_of_fits (by omega)
  have hrows : (fixedParams cfg).nrows.toNat = 4 := rfl
  have hkey : (fixedParams cfg).klen.toNat = 32 := rfl
  have hinput : (fixedParams cfg).inputLength = 64 := rfl
  have hpad : padLen cfg 64 ≤ 192 := by
    unfold padLen padBlock
    cases cfg.profile <;> decide
  rw [validate_eq_none_iff, hcols, hrows, hkey, hinput]
  omega

/-- DERIVE's body on valid parameters. -/
theorem deriveBody_of_valid (hv : validate s.cfg s.params = none) : deriveBody s = .ok (deriveRun s) := by
  simp [deriveBody, hv]

/-- R182: what DERIVE_FIXED does on a legal configuration. -/
theorem exec_deriveFixed (hlegal : s.cfg.Legal) (herr : s.err = .none) :
    exec .deriveFixed s = .next (deriveRun (s.setParams (fixedParams s.cfg))).complete :=
  runCommand_ok herr rfl (deriveBody_of_valid (s := s.setParams (fixedParams s.cfg)) (validate_fixedParams hlegal))

/-- A derivation ends in DONE. -/
theorem deriveRun_phase (s : State) : (deriveRun s).phase = .done := rfl

/-- Settles O41: the fixed parameters are valid, and a valid derivation writes its own bytes alone. -/
theorem deriveFixedNeverFails : Obligations.DeriveFixedNeverFails := by
  intro s hlegal herr
  have hrun := derivesTo_deriveRun (s := s.setParams (fixedParams s.cfg)) (validate_fixedParams hlegal)
  have hdone := deriveRun_phase (s.setParams (fixedParams s.cfg))
  have hcols : (fixedParams s.cfg).ncols.toNat = s.cfg.fixedC :=
    toNat_ofNat_of_fits (by obtain ⟨-, -, -, ⟨-, hC⟩, -⟩ := hlegal; omega)
  obtain ⟨S, m, d, p, k, heq⟩ := hrun.frame
  have hframe := hrun.writes.frame
  rw [heq] at hdone hframe
  obtain rfl : p = .done := hdone
  refine ⟨S, m, k, d, by rw [exec_deriveFixed hlegal herr, heq]; rfl, fun x hout hmat => hframe x ?_⟩
  rintro (hx | hx)
  · have hkey : (fixedParams s.cfg).klen.toNat = 32 := rfl
    rw [State.setParams_params, hkey] at hx
    omega
  · have hrows : (fixedParams s.cfg).nrows.toNat = 4 := rfl
    rw [State.setParams_params, hrows, hcols] at hx
    omega

end Sys2Proof.Machine
end

section
/-! PROOFS. Every step keeps the canonical form of the stores, the configuration, and the invariant. -/

namespace Sys2Proof.Machine

variable {W : Nat → Prop} {s t u : State}

/-! ### What a step can do -/

/-- R68, R69, R71: everything an admitted host write can do. -/
theorem hostWrite_cases (s : State) (offset : Nat) (v : Word) :
    s.hostWrite offset v = s ∨ s.hostWrite offset v = s.ignoreWrite ∨ s.hostWrite offset v = s.issue v ∨
    (s.phase.midDerivation = false ∧ ∃ q, s.hostWrite offset v = s.setParams q) ∨
    (∃ i, s.hostWrite offset v = s.hostSetSponge i v) ∨ (∃ k, s.hostWrite offset v = s.hostSetBlkIn k v) ∨
    ((target s.cfg offset = .inBuf ∨ target s.cfg offset = .mat) ∧
      s.hostWrite offset v = s.storeBytes offset (leBytes v)) := by
  unfold State.hostWrite
  cases s.busy with
  | true => exact .inr (.inl rfl)
  | false =>
    cases target s.cfg offset with
    | cmd => exact .inr (.inr (.inl rfl))
    | param r =>
      cases hp : s.phase.midDerivation with
      | true => exact .inr (.inl (by simp [State.writeTarget, hp]))
      | false => exact .inr (.inr (.inr (.inl ⟨rfl, s.params.set r v, by simp [State.writeTarget, hp]⟩)))
    | sponge i => exact .inr (.inr (.inr (.inr (.inl ⟨i, rfl⟩))))
    | blkIn k => exact .inr (.inr (.inr (.inr (.inr (.inl ⟨k, rfl⟩)))))
    | inBuf => exact .inr (.inr (.inr (.inr (.inr (.inr ⟨.inl rfl, rfl⟩)))))
    | mat => exact .inr (.inr (.inr (.inr (.inr (.inr ⟨.inr rfl, rfl⟩)))))
    | id | capMatWords | capInBytes | capOutBytes | capFixedC | capFixedT | capProfile | status | cursor _ | blkOut _
    | outBuf | unmapped => exact .inl rfl

/-- Everything a host event that has its turn can do when the machine does not stop. -/
theorem hostEvent_cases {e : HostEvent} (h : hostEvent e s = .next t) :
    t = s ∨ t = s.hardReset ∨ (∃ v, t = s.tick.recordRead v) ∨
      ∃ offset v, offset % 8 = 0 ∧ t = s.tick.hostWrite offset v := by
  cases e with
  | wait => cases h; exact .inl rfl
  | reset => cases h; exact .inr (.inl rfl)
  | read offset width =>
    unfold hostEvent at h
    dsimp only at h
    split at h
    · cases h; exact .inr (.inr (.inl ⟨_, rfl⟩))
    · cases h
  | write offset width v =>
    unfold hostEvent at h
    dsimp only at h
    split at h
    next hadm =>
      cases h
      exact .inr (.inr (.inr ⟨offset, v, ((admitted_iff _ _).1 hadm).2.1, rfl⟩))
    · cases h

/-- A step of the host is one event, taken from its list, or none. -/
theorem hostStep_cases (h : hostStep s = .next t) :
    t = s ∨ ∃ e rest, hostEvent e { s with host := rest } = .next t := by
  unfold hostStep at h
  split at h
  · cases h; exact .inl rfl
  next e rest _ => exact .inr ⟨e, rest, h⟩

/-- What holds of the suppressed command, of every error entry and of the body's result holds after a command. -/
theorem runCommand_keeps {P : State → Prop} {legal : Phase → Bool} {body : State → Except ErrCode State}
    (h : runCommand legal body s = .next t) (hs : P s.complete) (he : ∀ code, P (s.raise code).complete)
    (hb : ∀ u, legal s.phase = true → body s = .ok u → P u.complete) : P t := by
  rcases runCommand_cases legal body s with ⟨-, h'⟩ | ⟨-, -, h'⟩ | ⟨-, hp, u, hu, h'⟩ | ⟨-, -, code, -, h'⟩ <;>
    rw [h'] at h <;> cases h
  · exact hs
  · exact he .phase
  · exact hb u hp hu
  · exact he code

theorem runIllegal_keeps {P : State → Prop} (h : runIllegal s = .next t) (hs : P s.complete)
    (he : P (s.raise .illegal).complete) : P t := by
  unfold runIllegal at h
  split at h <;> cases h
  · exact hs
  · exact he

theorem onlyIn_iff (q p : Phase) : onlyIn q p = true ↔ p = q := by simp [onlyIn]

/-- R140, R180: DERIVE's body runs on valid parameters alone. -/
theorem deriveBody_ok (h : deriveBody s = .ok u) : validate s.cfg s.params = none ∧ u = deriveRun s := by
  unfold deriveBody at h
  split at h
  · cases h
  next hv => cases h; exact ⟨hv, rfl⟩

/-- R150: so does M_START's. -/
theorem validatedStart_ok (h : validatedStart s = .ok u) : validate s.cfg s.params = none ∧ u = startBody s := by
  unfold validatedStart at h
  split at h
  · cases h
  next hv => cases h; exact ⟨hv, rfl⟩

/-- R122: SQUEEZE's body runs when the bytes fit OUT. -/
theorem squeezeBody_ok {n : Nat} (h : squeezeBody n s = .ok u) : n ≤ s.cfg.outBytes ∧ u = s.squeezeToOut n := by
  unfold squeezeBody at h
  split at h
  · cases h
  next hn => cases h; exact ⟨Nat.le_of_not_lt hn, rfl⟩

/-! ### The stores' canonical form and the configuration -/

theorem WritesOnly.complete (h : WritesOnly W s t) : WritesOnly W s t.complete := h.trans (.of_mem_eq rfl rfl)

theorem WritesOnly.anywhere (h : WritesOnly W s t) : WritesOnly (fun _ => True) s t := h.mono fun _ _ => trivial

theorem runCommand_writes {legal : Phase → Bool} {body : State → Except ErrCode State}
    (h : runCommand legal body s = .next t) (hb : ∀ u, body s = .ok u → WritesOnly W s u) : WritesOnly W s t :=
  runCommand_keeps h (.of_mem_eq rfl rfl) (fun _ => .of_mem_eq rfl rfl) fun u _ hu => (hb u hu).complete

/-- A command whose body raises no error. -/
theorem runCommand_total_writes {legal : Phase → Bool} {f : State → State}
    (h : runCommand legal (fun s => .ok (f s)) s = .next t) (hf : WritesOnly W s (f s)) : WritesOnly W s t :=
  runCommand_writes h fun u hu => by cases hu; exact hf

/-- R119, R120: a duplexing writes no byte of the stores. -/
theorem afterDuplex_writes (r : Sponge × Block) : WritesOnly W s (s.afterDuplex r) := .of_mem_eq rfl rfl

/-- Every command, in every state, keeps the configuration and the canonical form. -/
theorem exec_writes {i : Instr} (h : exec i s = .next t) : WritesOnly (fun _ => True) s t := by
  unfold exec at h
  cases i with
  | nop => exact runCommand_total_writes (f := id) h (.refl s)
  | clrerr | srst => cases h; exact .of_mem_eq rfl rfl
  | init | perm | permR | absorb => exact runCommand_total_writes h ((WritesOnly.refl s).setSponge _)
  | duplex | duplexR => exact runCommand_total_writes h (afterDuplex_writes _)
  | squeeze n =>
    refine runCommand_writes h fun u hu => ?_
    obtain ⟨-, rfl⟩ := squeezeBody_ok hu
    exact (squeezeToOut_writes n).anywhere
  | mStart =>
    refine runCommand_writes h fun u hu => ?_
    obtain ⟨-, rfl⟩ := validatedStart_ok hu
    exact (derivesTo_start s).writes.anywhere
  | mAbsorb => exact runCommand_total_writes h (((WritesOnly.refl s).nextDraw.setSponge _).setPhase _)
  | mRow0 => exact runCommand_total_writes h (row0Body_eq s ▸ ((row0Columns_writes s).moveTo _).anywhere)
  | mRow1 => exact runCommand_total_writes h (row1Body_eq s ▸ ((row1Columns_writes s).moveTo _).anywhere)
  | mSetupRow => exact runCommand_total_writes h (setupRowBody_eq s ▸ ((setupColumns_writes _ _ _ s).moveTo _).anywhere)
  | mWanderRow =>
    exact runCommand_total_writes h (wanderRowBody_eq s ▸ ((wanderColumns_writes _ _ _ s).moveTo _).anywhere)
  | mWrapup => exact runCommand_total_writes h (wrapupBody_writes s).anywhere
  | derive =>
    refine runCommand_writes h fun u hu => ?_
    obtain ⟨hv, rfl⟩ := deriveBody_ok hu
    exact (derivesTo_deriveRun hv).writes.anywhere
  | deriveFixed =>
    refine runCommand_writes h fun u hu => ?_
    obtain ⟨hv, rfl⟩ := deriveBody_ok (s := s.setParams (fixedParams s.cfg)) hu
    exact WritesOnly.trans (t := s.setParams (fixedParams s.cfg)) (.of_mem_eq rfl rfl)
      (derivesTo_deriveRun hv).writes.anywhere

theorem engineStep_writes (h : engineStep s = .next t) : WritesOnly (fun _ => True) s t := by
  unfold engineStep at h
  split at h
  · exact exec_writes h
  · exact runIllegal_keeps h (.of_mem_eq rfl rfl) (.of_mem_eq rfl rfl)

/-- An admitted host write keeps them too, whatever it names. -/
theorem hostWrite_writes (s : State) (offset : Nat) (v : Word) :
    WritesOnly (fun _ => True) s (s.hostWrite offset v) := by
  rcases hostWrite_cases s offset v with h | h | h | ⟨-, q, h⟩ | ⟨i, h⟩ | ⟨k, h⟩ | ⟨-, h⟩ <;> rw [h]
  · exact .refl s
  · exact .of_mem_eq rfl rfl
  · exact .of_mem_eq rfl rfl
  · exact .of_mem_eq rfl rfl
  · exact .of_mem_eq rfl rfl
  · exact .of_mem_eq rfl rfl
  · exact writesOnly_storeBytes fun _ _ _ => trivial

/-- R235: the reset input unlists every byte. -/
theorem hardReset_writes (s : State) : WritesOnly (fun _ => True) s s.hardReset where
  cfg := rfl
  wf _ := wf_nil
  listed _ _ := .inr trivial
  frame _ h := absurd trivial h

theorem hostEvent_writes {e : HostEvent} (h : hostEvent e s = .next t) : WritesOnly (fun _ => True) s t := by
  rcases hostEvent_cases h with h | h | ⟨v, h⟩ | ⟨offset, v, -, h⟩ <;> rw [h]
  · exact .refl s
  · exact hardReset_writes s
  · exact .of_mem_eq rfl rfl
  · exact WritesOnly.trans (t := s.tick) (.of_mem_eq rfl rfl) (hostWrite_writes _ offset v)

theorem step_writes (h : step s = .next t) : WritesOnly (fun _ => True) s t := by
  unfold step at h
  split at h
  · exact engineStep_writes h
  · rcases hostStep_cases h with rfl | ⟨e, rest, he⟩
    · exact .refl t
    · exact .trans (.of_mem_eq (t := { s with host := rest }) rfl rfl) (hostEvent_writes he)

/-- Settles O58: whatever a step writes, it writes by `Memory.store` or clears the list. -/
theorem stepKeepsStoresCanonical : Obligations.StepKeepsStoresCanonical := by
  intro s t h
  exact ⟨(step_writes h).wf, (step_writes h).cfg⟩

/-! ### The invariant -/

/-- The part of the invariant that does not speak of PHASE, the parameters and the cursors. -/
structure StoresInv (s : State) : Prop where
  cfg_legal : s.cfg.Legal
  mem_wf : Memory.wf s.mem
  mem_mapped : ∀ c ∈ s.mem, storeOffset s.cfg c.1

theorem State.Inv.stores (h : s.Inv) : StoresInv s := ⟨h.cfg_legal, h.mem_wf, h.mem_mapped⟩

theorem State.Inv.of_fits (h : StoresInv s) (hidle : s.busy = false → s.engineDelay = 0)
    (hv : s.phase.midDerivation = true → validate s.cfg s.params = none)
    (hfit : Machine.cursorFits s.params s.phase s.cursor) : s.Inv where
  cfg_legal := h.cfg_legal
  mem_wf := h.mem_wf
  mem_mapped := h.mem_mapped
  idle_delay := hidle
  valid := hv
  start hp := by rcases hp with hp | hp | hp <;> rw [hp] at hfit <;> exact hfit
  setup hp := by rw [hp] at hfit; exact hfit
  wandering hp := by rw [hp] at hfit; exact hfit
  wrapUp hp := by rw [hp] at hfit; exact hfit

theorem StoresInv.of_writes (h : StoresInv s) (hw : WritesOnly W s t) (hW : ∀ x, W x → storeOffset s.cfg x) :
    StoresInv t where
  cfg_legal := hw.cfg ▸ h.cfg_legal
  mem_wf := hw.wf h.mem_wf
  mem_mapped c hc := by
    rw [hw.cfg]
    exact (hw.listed c hc).elim (h.mem_mapped c) (hW c.1)

/-- An update that keeps the stores' part, PHASE, the parameters and the cursors keeps the invariant. -/
theorem State.Inv.keep (h : s.Inv) (ht : StoresInv t) (hcfg : t.cfg = s.cfg) (hq : t.params = s.params)
    (hp : t.phase = s.phase) (hk : t.cursor = s.cursor) (hidle : t.busy = false → t.engineDelay = 0) : t.Inv :=
  .of_fits ht hidle (by rw [hp, hcfg, hq]; exact h.valid) (by rw [hp, hq, hk]; exact h.cursorFits)

/-- So does one that writes none of the invariant's fields but those of a completion. -/
theorem State.Inv.keep_all (h : s.Inv) (hm : t.mem = s.mem) (hcfg : t.cfg = s.cfg) (hq : t.params = s.params)
    (hp : t.phase = s.phase) (hk : t.cursor = s.cursor) (hidle : t.busy = false → t.engineDelay = 0) : t.Inv :=
  h.keep (h.stores.of_writes (W := fun _ => False) (.of_mem_eq hcfg hm) fun _ => False.elim) hcfg hq hp hk hidle

/-- In IDLE and DONE the invariant asks nothing of the parameters and the cursors. -/
theorem State.Inv.of_not_midDerivation (h : StoresInv s) (hidle : s.busy = false → s.engineDelay = 0)
    (hp : s.phase.midDerivation = false) : s.Inv := by
  refine .of_fits h hidle (fun hp' => absurd hp' (by simp [hp])) ?_
  cases hph : s.phase <;> simp_all [Phase.midDerivation, Machine.cursorFits]

/-- Where a derivation can come to, the invariant holds. -/
theorem DerivesTo.complete_inv (h : StoresInv s) (hv : validate s.cfg s.params = none) (hu : DerivesTo s u) :
    u.complete.Inv := by
  have hstores := h.of_writes hu.writes fun _ => storeOffset_of_derivationByte hv
  have hvalid : validate u.cfg u.params = none := by rw [hu.writes.cfg, hu.params, hv]
  refine .of_fits ⟨hstores.cfg_legal, hstores.mem_wf, hstores.mem_mapped⟩ (fun _ => rfl) (fun _ => hvalid) ?_
  have := hu.fits
  rwa [← hu.params] at this

theorem State.Inv.of_resetOf {cfg : Config} (h : cfg.Legal) : (State.resetOf cfg).Inv :=
  .of_not_midDerivation ⟨h, wf_nil, fun _ hc => absurd hc List.not_mem_nil⟩ (fun _ => rfl) rfl

/-- Settles O56: right after reset the stores are empty and no derivation is in progress. -/
theorem resetMeetsInvariant : Obligations.ResetMeetsInvariant :=
  ⟨fun _ => .of_resetOf, .of_resetOf (by decide)⟩

section Commands

variable (hs : s.Inv)
include hs

theorem complete_inv : s.complete.Inv := hs.keep_all rfl rfl rfl rfl rfl fun _ => rfl

theorem complete_raise_inv (code : ErrCode) : (s.raise code).complete.Inv :=
  hs.keep_all rfl rfl rfl rfl rfl fun _ => rfl

theorem complete_setSponge_inv (S : Sponge) : (s.setSponge S).complete.Inv :=
  hs.keep_all rfl rfl rfl rfl rfl fun _ => rfl

theorem complete_afterDuplex_inv (r : Sponge × Block) : (s.afterDuplex r).complete.Inv :=
  hs.keep_all rfl rfl rfl rfl rfl fun _ => rfl

theorem runCommand_inv {legal : Phase → Bool} {body : State → Except ErrCode State}
    (h : runCommand legal body s = .next t)
    (hb : ∀ u, legal s.phase = true → body s = .ok u → u.complete.Inv) : t.Inv :=
  runCommand_keeps h (complete_inv hs) (complete_raise_inv hs) hb

/-- A command whose body raises no error. -/
theorem runCommand_total_inv {legal : Phase → Bool} {f : State → State}
    (h : runCommand legal (fun s => .ok (f s)) s = .next t) (hf : (f s).complete.Inv) : t.Inv :=
  runCommand_inv hs h fun u _ hu => by cases hu; exact hf

/-- R136: a phase step. -/
theorem runCommand_phaseStep_inv {p : Phase} {f : State → State} (hp : p.midDerivation = true)
    (h : runCommand (onlyIn p) (fun s => .ok (f s)) s = .next t)
    (hf : validate s.cfg s.params = none → s.phase = p → DerivesTo s (f s)) : t.Inv := by
  refine runCommand_inv hs h fun u hq hu => ?_
  rw [onlyIn_iff] at hq
  have hv := hs.valid (hq ▸ hp)
  cases hu
  exact (hf hv hq).complete_inv hs.stores hv

/-- Every command keeps the invariant. -/
theorem exec_inv {i : Instr} (h : exec i s = .next t) : t.Inv := by
  have hself := hs.derivesTo_self
  unfold exec at h
  cases i with
  | clrerr => cases h; exact hs.keep_all rfl rfl rfl rfl rfl fun _ => rfl
  | srst => cases h; exact .of_not_midDerivation ⟨hs.cfg_legal, hs.mem_wf, hs.mem_mapped⟩ (fun _ => rfl) rfl
  | nop => exact runCommand_total_inv hs (f := id) h (complete_inv hs)
  | init | perm | permR | absorb => exact runCommand_total_inv hs h (complete_setSponge_inv hs _)
  | duplex | duplexR => exact runCommand_total_inv hs h (complete_afterDuplex_inv hs _)
  | squeeze n =>
    refine runCommand_inv hs h fun u _ hu => ?_
    obtain ⟨hn, rfl⟩ := squeezeBody_ok hu
    have hw := (squeezeToOut_writes (s := s) n).complete
    exact hs.keep (hs.stores.of_writes hw fun x hx => .inr (.inl (by omega))) rfl rfl rfl rfl fun _ => rfl
  | mStart =>
    refine runCommand_inv hs h fun u _ hu => ?_
    obtain ⟨hv, rfl⟩ := validatedStart_ok hu
    exact (derivesTo_start s).complete_inv hs.stores hv
  | mAbsorb => exact runCommand_phaseStep_inv hs rfl h fun _ => hself.absorb
  | mRow0 => exact runCommand_phaseStep_inv hs rfl h fun hv => hself.row0 hv
  | mRow1 => exact runCommand_phaseStep_inv hs rfl h fun hv => hself.row1 hv
  | mSetupRow => exact runCommand_phaseStep_inv hs rfl h fun hv => hself.setupRow hv
  | mWanderRow => exact runCommand_phaseStep_inv hs rfl h fun hv => hself.wanderRow hv
  | mWrapup => exact runCommand_phaseStep_inv hs rfl h fun _ _ => hself.wrapup
  | derive =>
    refine runCommand_inv hs h fun u _ hu => ?_
    obtain ⟨hv, rfl⟩ := deriveBody_ok hu
    exact (derivesTo_deriveRun hv).complete_inv hs.stores hv
  | deriveFixed =>
    refine runCommand_inv hs h fun u _ hu => ?_
    obtain ⟨hv, rfl⟩ := deriveBody_ok (s := s.setParams (fixedParams s.cfg)) hu
    exact DerivesTo.complete_inv (s := s.setParams (fixedParams s.cfg)) ⟨hs.cfg_legal, hs.mem_wf, hs.mem_mapped⟩ hv
      (derivesTo_deriveRun hv)

theorem engineStep_inv (h : engineStep s = .next t) : t.Inv := by
  unfold engineStep at h
  split at h
  · exact exec_inv hs h
  · exact runIllegal_keeps h (complete_inv hs) (complete_raise_inv hs .illegal)

omit hs in
/-- No register below 0x100 is a byte of a store (R63). -/
theorem controlTarget_ne_store (offset : Nat) : controlTarget offset ≠ .inBuf ∧ controlTarget offset ≠ .mat := by
  unfold controlTarget
  split <;> simp

omit hs in
/-- R64, R66: an offset of IN or MAT. -/
theorem storeOffset_of_target {cfg : Config} {offset : Nat}
    (h : target cfg offset = .inBuf ∨ target cfg offset = .mat) :
    (inBase ≤ offset ∧ offset < inBase + cfg.inBytes) ∨ (matBase ≤ offset ∧ offset < matBase + 8 * cfg.matWords) := by
  have hctl := controlTarget_ne_store offset
  unfold target at h
  split_ifs at h <;> simp_all

/-- R62: the eight bytes of an aligned host write to IN or MAT lie inside it, R7's sizes being whole words. -/
theorem hostWrite_inv {offset : Nat} (halign : offset % 8 = 0) (v : Word) : (s.hostWrite offset v).Inv := by
  rcases hostWrite_cases s offset v with h | h | h | ⟨hp, q, h⟩ | ⟨i, h⟩ | ⟨k, h⟩ | ⟨ht, h⟩ <;> rw [h]
  · exact hs
  · exact hs.keep_all rfl rfl rfl rfl rfl hs.idle_delay
  · exact hs.keep_all rfl rfl rfl rfl rfl fun hb => Bool.noConfusion hb
  · exact .of_not_midDerivation ⟨hs.cfg_legal, hs.mem_wf, hs.mem_mapped⟩ hs.idle_delay hp
  · exact hs.keep_all rfl rfl rfl rfl rfl hs.idle_delay
  · exact hs.keep_all rfl rfl rfl rfl rfl hs.idle_delay
  · obtain ⟨-, ⟨hin, -⟩, -⟩ := hs.cfg_legal
    have hw : WritesOnly (fun x => offset ≤ x ∧ x < offset + 8) s (s.storeBytes offset (leBytes v)) :=
      writesOnly_storeBytes fun _ hlo hhi => ⟨hlo, hhi⟩
    refine hs.keep (hs.stores.of_writes hw fun x hx => ?_) rfl rfl rfl rfl hs.idle_delay
    have hbase : inBase % 8 = 0 ∧ matBase % 8 = 0 := by decide
    rcases storeOffset_of_target ht with h | h
    · exact .inl (by omega)
    · exact .inr (.inr (by omega))

theorem tick_inv : s.tick.Inv :=
  hs.keep_all rfl rfl rfl rfl rfl fun hb => by
    have := hs.idle_delay hb
    rw [State.tick_engineDelay]
    omega

omit hs in
theorem hardReset_inv (h : s.cfg.Legal) : s.hardReset.Inv :=
  .of_not_midDerivation ⟨h, wf_nil, fun _ hc => absurd hc List.not_mem_nil⟩ (fun _ => rfl) rfl

theorem hostEvent_inv {e : HostEvent} (h : hostEvent e s = .next t) : t.Inv := by
  rcases hostEvent_cases h with rfl | rfl | ⟨v, rfl⟩ | ⟨offset, v, halign, rfl⟩
  · exact hs
  · exact hardReset_inv hs.cfg_legal
  · exact (tick_inv hs).keep_all rfl rfl rfl rfl rfl (tick_inv hs).idle_delay
  · exact hostWrite_inv (tick_inv hs) halign v

end Commands

/-- Settles O57: the engine's step runs a command, which keeps the invariant, and the host's step is one event. -/
theorem stepKeepsInvariant : Obligations.StepKeepsInvariant := by
  intro s t hs h
  unfold step at h
  split at h
  · exact engineStep_inv hs h
  · rcases hostStep_cases h with rfl | ⟨e, rest, he⟩
    · exact hs
    · exact hostEvent_inv (s := { s with host := rest })
        (hs.keep_all rfl rfl rfl rfl rfl hs.idle_delay) he

end Sys2Proof.Machine
end

section
/-! PROOFS. M_WANDER_ROW (R156): what its columns leave in the cells, and the command as a whole. -/

namespace Sys2Proof.Machine

variable {s t : State}

/-- R138: a cell that held `a` holds a XOR b. -/
theorem xorCell_cellHolds {r c : Nat} {a : Block} (b : Block) (h : s.cellHolds r c a) :
    (s.xorCell r c b).cellHolds r c (blockXor a b) := by
  have hw := writeCell_cellHolds s r c (blockXor (s.readCell r c) b)
  rw [readCell_of_cellHolds h] at hw
  rw [State.xorCell, readCell_of_cellHolds h]
  exact cellHolds_congr (State.nextDraw_params _) (State.nextDraw_mem _) hw

/-- R138: an update of one cell leaves the other cells alone. -/
theorem xorCell_keeps_cell {r c r' c' : Nat} {b b' : Block} (hc : c < s.params.ncols.toNat)
    (hc' : c' < s.params.ncols.toNat) (hne : r ≠ r' ∨ c ≠ c') (h : s.cellHolds r' c' b') :
    (s.xorCell r c b).cellHolds r' c' b' :=
  cellHolds_congr (State.nextDraw_params _) (State.nextDraw_mem _) (writeCell_keeps_cell hc hc' hne h)

/-- R154, R156: a column's duplexing, its two input cells holding written blocks. -/
theorem duplexRows_of_cellHolds {prev rowa c : Nat} {a b : Block} (ha : s.cellHolds prev c a)
    (hb : s.cellHolds rowa c b) :
    duplexRows s prev rowa c =
      (s.nextDraw.nextDraw.setSponge (p1 s.cfg.rot (xorRate s.sponge (blockAdd a b))), a,
        rate (p1 s.cfg.rot (xorRate s.sponge (blockAdd a b)))) := by
  have hb' : s.nextDraw.readCell rowa c = b :=
    readCell_of_cellHolds (cellHolds_congr (State.nextDraw_params s) (State.nextDraw_mem s) hb)
  rw [duplexRows, readCell_of_cellHolds ha, hb']
  rfl

/-- R156: a column, `S` being the sponge state after its duplexing. -/
theorem wanderColumn_of_cellHolds {row prev rowa c : Nat} {a b : Block} {S : Sponge} (ha : s.cellHolds prev c a)
    (hb : s.cellHolds rowa c b) (hS : p1 s.cfg.rot (xorRate s.sponge (blockAdd a b)) = S) :
    wanderColumn row prev rowa s c =
      ((s.nextDraw.nextDraw.setSponge S).xorCell row c (rate S)).xorCell rowa c (rotW (rate S)) := by
  rw [wanderColumn, duplexRows_of_cellHolds ha hb, hS]

/-- R156: the updates of column `c` leave the cells of the other columns alone. -/
theorem xorCells_keep_cell {row rowa c r c' : Nat} {o o' b : Block} (hc : c < s.params.ncols.toNat)
    (hc' : c' < s.params.ncols.toNat) (hne : c ≠ c') (h : s.cellHolds r c' b) :
    ((s.xorCell row c o).xorCell rowa c o').cellHolds r c' b :=
  xorCell_keeps_cell hc hc' (.inr hne) (xorCell_keeps_cell hc hc' (.inr hne) h)

/-- R156: what column `c` of rows ROW and row* holds after the output `o`, `M` being what the rows held before: both
updates fall on one cell when the rows coincide. -/
def wanderUpdated (t : State) (M : Nat → Nat → Block) (row rowa c : Nat) (o : Block) : Prop :=
  (rowa = row → t.cellHolds row c (blockXor (blockXor (M row c) o) (rotW o))) ∧
    (rowa ≠ row → t.cellHolds row c (blockXor (M row c) o) ∧ t.cellHolds rowa c (blockXor (M rowa c) (rotW o)))

theorem wanderUpdated_mono {M : Nat → Nat → Block} {row rowa c : Nat} {o : Block}
    (h : ∀ r b, s.cellHolds r c b → t.cellHolds r c b) (hs : wanderUpdated s M row rowa c o) :
    wanderUpdated t M row rowa c o :=
  ⟨fun he => h _ _ (hs.1 he), fun hne => ⟨h _ _ (hs.2 hne).1, h _ _ (hs.2 hne).2⟩⟩

/-- R156: the two XOR updates of a column. -/
theorem wanderUpdated_xorCells {M : Nat → Nat → Block} {row rowa c : Nat} (o : Block)
    (hc : c < s.params.ncols.toNat) (hrow : s.cellHolds row c (M row c)) (hrowa : s.cellHolds rowa c (M rowa c)) :
    wanderUpdated ((s.xorCell row c o).xorCell rowa c (rotW o)) M row rowa c o := by
  constructor
  · rintro rfl
    exact xorCell_cellHolds _ (xorCell_cellHolds _ hrow)
  · intro hne
    exact ⟨xorCell_keeps_cell hc hc (.inl hne) (xorCell_cellHolds _ hrow),
      xorCell_cellHolds _ (xorCell_keeps_cell hc hc (.inl hne.symm) hrowa)⟩

section Columns

variable (s : State) (M : Nat → Nat → Block) (row prev rowa : Nat)

/-- R156: S after the first `n` duplexings of a row visit. -/
def wanderChain (n : Nat) : Sponge :=
  duplexChain s.cfg.rot s.sponge (fun c => blockAdd (M prev c) (M rowa c)) n

/-- The state `t` that the first `n` columns of a row visit begun in `s` leave: S, the updated cells, and the cells of
the later columns as they were. -/
structure WanderedColumns (n : Nat) (t : State) : Prop where
  frame : dataFrame s t
  sponge : t.sponge = wanderChain s M prev rowa n
  updated : ∀ c, c < n → wanderUpdated t M row rowa c (rate (wanderChain s M prev rowa (c + 1)))
  waiting : ∀ r, (r = row ∨ r = prev ∨ r = rowa) → ∀ c, n ≤ c → c < s.params.ncols.toNat → t.cellHolds r c (M r c)

variable {s M row prev rowa}

/-- One column more. -/
theorem WanderedColumns.next {n : Nat} (h : WanderedColumns s M row prev rowa n t) (hn : n < s.params.ncols.toNat) :
    WanderedColumns s M row prev rowa (n + 1) (wanderColumn row prev rowa t n) := by
  have hS : p1 t.cfg.rot (xorRate t.sponge (blockAdd (M prev n) (M rowa n))) = wanderChain s M prev rowa (n + 1) := by
    rw [dataFrame_cfg h.frame, h.sponge]
    rfl
  have hframe := dataFrame_trans h.frame (wanderColumn_frame row prev rowa t n)
  have hrow := h.waiting row (.inl rfl) n le_rfl hn
  have hrowa := h.waiting rowa (.inr (.inr rfl)) n le_rfl hn
  rw [wanderColumn_of_cellHolds (h.waiting prev (.inr (.inl rfl)) n le_rfl hn) hrowa hS] at hframe ⊢
  generalize hu : t.nextDraw.nextDraw.setSponge (wanderChain s M prev rowa (n + 1)) = u at hframe ⊢
  have hsponge : u.sponge = wanderChain s M prev rowa (n + 1) := by rw [← hu, State.setSponge_sponge]
  have hparams : u.params = t.params := by
    rw [← hu, State.setSponge_params, State.nextDraw_params, State.nextDraw_params]
  have hmem : u.mem = t.mem := by rw [← hu, State.setSponge_mem, State.nextDraw_mem, State.nextDraw_mem]
  have hcols : u.params.ncols.toNat = s.params.ncols.toNat := by rw [hparams, dataFrame_params h.frame]
  constructor
  case frame => exact hframe
  case sponge => exact hsponge
  case updated =>
    intro c hc
    rcases Nat.lt_succ_iff_lt_or_eq.1 hc with hc | rfl
    · exact wanderUpdated_mono (fun r b hold => xorCells_keep_cell (by omega) (by omega) (by omega)
        (cellHolds_congr hparams hmem hold)) (h.updated c hc)
    · exact wanderUpdated_xorCells _ (by omega) (cellHolds_congr hparams hmem hrow) (cellHolds_congr hparams hmem hrowa)
  case waiting =>
    intro r hr c hnc hc
    exact xorCells_keep_cell (by omega) (by omega) (by omega)
      (cellHolds_congr hparams hmem (h.waiting r hr c (by omega) hc))

/-- R156: all columns of a row visit. -/
theorem wanderedColumns
    (hM : ∀ r, (r = row ∨ r = prev ∨ r = rowa) → ∀ c, c < s.params.ncols.toNat → s.cellHolds r c (M r c)) :
    WanderedColumns s M row prev rowa s.params.ncols.toNat (s.columns (wanderColumn row prev rowa)) := by
  have hfirst (n : Nat) (hn : n ≤ s.params.ncols.toNat) :
      WanderedColumns s M row prev rowa n ((List.range n).foldl (wanderColumn row prev rowa) s) := by
    induction n with
    | zero =>
      exact ⟨dataFrame_refl s, rfl, fun c hc => absurd hc (Nat.not_lt_zero c), fun r hr c _ hc => hM r hr c hc⟩
    | succ n ih =>
      rw [List.range_succ, List.foldl_append]
      exact (ih (by omega)).next (by omega)
  exact hfirst _ le_rfl

end Columns

/-- R156: M_WANDER_ROW runs its body. -/
theorem exec_mWanderRow (herr : s.err = .none) (hp : s.phase = .wandering) :
    exec .mWanderRow s = .next (wanderRowBody s).complete :=
  runCommand_ok (legal := onlyIn .wandering) (body := fun s => .ok (wanderRowBody s)) herr (by simp [onlyIn, hp]) rfl

/-- Settles O34, by induction on the columns: a column touches its own cells alone, so the later ones read what the rows
held before the visit. -/
theorem mWanderRowCommand : Obligations.MWanderRowCommand := by
  intro s M herr hp hcur C R row prev rowa hM S
  have hR : 0 < R := Nat.zero_lt_of_lt hcur.row_lt
  have hR' : R < 2 ^ 64 := s.params.nrows.isLt
  have hrowa : s.wanderRowa = rowa := emod_natCast _ _
  have hcols := wanderedColumns hM
  have hwrites := wanderColumns_writes row prev rowa s
  obtain ⟨T, m, d, hframe⟩ := hcols.frame
  have hT : T = S C := by
    have := hcols.sponge
    rwa [hframe] at this
  subst hT
  have hbody : wanderRowBody s =
      (s.columns (wanderColumn row prev rowa)).moveTo (afterWanderRow s.params .wandering rowa s.cursor) := by
    rw [wanderRowBody_eq, hrowa, hp]
  have hrow := nextWanderCursor_row_toNat hR hR' s.params.tcost rowa s.cursor
  have hzero : (nextWanderCursor R s.params.tcost rowa s.cursor).row.toNat = 0 ↔
      (nextWanderCursor R s.params.tcost rowa s.cursor).row = 0 :=
    ⟨fun h => BitVec.eq_of_toNat_eq h, fun h => by rw [h]; rfl⟩
  refine ⟨m, d, nextWanderCursor R s.params.tcost rowa s.cursor,
    (afterWanderRow s.params .wandering rowa s.cursor).1, ?_, ?_, ?_, ?_, nextWanderCursor_prev .., ?_,
    nextWanderCursor_window .., nextWanderCursor_gap .., ?_, ?_, ?_⟩
  case refine_1 =>
    rw [exec_mWanderRow herr hp, hbody, hframe]
    rfl
  case refine_2 =>
    intro c hc
    refine wanderUpdated_mono (fun r b => cellHolds_congr ?_ ?_) (hcols.updated c hc)
    · exact (dataFrame_params hcols.frame).symm
    · rw [hframe]
  case refine_3 =>
    intro x hx hx'
    have := hwrites.frame x (by rintro (⟨hlo, hhi⟩ | ⟨hlo, hhi⟩) <;> omega)
    rwa [hframe] at this
  case refine_4 => rw [nextWanderCursor_rowa, toNat_ofNat_of_fits ((Nat.mod_lt _ hR).trans hR')]
  case refine_5 => rw [hrow, emod_cast _ hR]
  case refine_6 =>
    rintro ⟨hz, htau⟩
    exact ⟨if_pos ⟨hzero.1 hz, htau⟩, nextWanderCursor_same_pass (.inr htau)⟩
  case refine_7 =>
    rintro ⟨hz, htau⟩
    obtain ⟨htau', hstep⟩ := nextWanderCursor_next_pass (hzero.1 hz) htau
    have hlt := hcur.tau_lt htau
    exact ⟨if_neg (by tauto), by rw [htau', toNat_ofNat_of_fits (by have := s.params.tcost.isLt; omega)], hstep⟩
  case refine_8 =>
    intro hz
    exact ⟨if_neg (by tauto), nextWanderCursor_same_pass (.inl (by tauto))⟩

end Sys2Proof.Machine
end

section
/-! PROOFS. The control commands (R195 to R197), the rate and the initial state (R115, R116), SQUEEZE (R122) and DERIVE
(R180), each as a whole. -/

namespace Sys2Proof.Machine

variable {s t u : State}

/-! ### Control commands -/

/-- R195: NOP completes, an error recorded or not. -/
theorem exec_nop (s : State) : exec .nop s = .next s.complete := by
  by_cases h : s.err = .none
  · exact runCommand_ok h rfl rfl
  · exact runCommand_suppressed (legal := anyPhase) (body := .ok) h

/-- Settles O15: CLRERR and SRST run whatever ERR and PHASE are, and NOP's body is empty, so that suppressing it changes
nothing. -/
theorem controlCommands : Obligations.ControlCommands :=
  fun s => ⟨exec_nop s, rfl, rfl⟩

/-! ### The rate and the initial state -/

/-- R115: XorRate on a rate word. -/
theorem xorRate_getElem_rate (S : Sponge) (b : Block) {k : Nat} (h : k < 12) :
    (xorRate S b)[k]'(by omega) = S[k]'(by omega) ^^^ b[k] := by
  simp [xorRate, h]

/-- R22: XorRate on a capacity word. -/
theorem xorRate_getElem_capacity (S : Sponge) (b : Block) {k : Nat} (hlo : 12 ≤ k) (h : k < 16) :
    (xorRate S b)[k] = S[k] := by
  simp [xorRate, show ¬ k < 12 by omega]

/-- R116: the initial state of profile DOC. -/
theorem initState_doc {cfg : Config} (hp : cfg.profile = .doc) {k : Nat} (h : k < 16) :
    (initState cfg)[k] = if hk : k < 12 then 0 else cfg.iv[k - 8] := by
  simp [initState, hp]

/-- R116: the initial state of profile REF. -/
theorem initState_ref {cfg : Config} (hp : cfg.profile = .ref) {k : Nat} (h : k < 16) :
    (initState cfg)[k] = if hk : k < 8 then 0 else cfg.iv[k - 8] := by
  simp [initState, hp]

/-- Settles O19, word by word. -/
theorem rateAndCapacity : Obligations.RateAndCapacity := by
  refine ⟨fun S b k h => xorRate_getElem_rate S b h, fun S b k hlo h => xorRate_getElem_capacity S b hlo h,
    fun cfg hp => ⟨fun k hk => ?_, fun k hk => ?_⟩, fun cfg hp => ⟨fun k hk => ?_, fun k hk => ?_⟩⟩
  · rw [initState_doc hp, dif_pos hk]
  · rw [initState_doc hp, dif_neg (by omega)]
    congr 1
    omega
  · rw [initState_ref hp, dif_pos hk]
  · rw [initState_ref hp, dif_neg (by omega)]
    congr 1
    omega

/-! ### SQUEEZE -/

/-- R136: the phases of the sponge primitives. -/
theorem idleOrDone_iff (p : Phase) : idleOrDone p = true ↔ p = .idle ∨ p = .done := by simp [idleOrDone]

/-- R122: what SQUEEZE does with a byte count that fits OUT. -/
theorem exec_squeeze_of_fits {n : Nat} (herr : s.err = .none) (hp : s.phase = .idle ∨ s.phase = .done)
    (hn : n ≤ s.cfg.outBytes) : exec (.squeeze n) s = .next (s.squeezeToOut n).complete :=
  runCommand_ok herr ((idleOrDone_iff _).2 hp) (if_neg (Nat.not_lt.2 hn))

/-- R122: and with one that does not. -/
theorem exec_squeeze_of_exceeds {n : Nat} (herr : s.err = .none) (hp : s.phase = .idle ∨ s.phase = .done)
    (hn : s.cfg.outBytes < n) : exec (.squeeze n) s = .next (s.raise .param).complete :=
  runCommand_error herr ((idleOrDone_iff _).2 hp) (if_pos hn)

/-- Settles O22: the squeezed bytes are one store of `n` bytes at OUT[0]. -/
theorem squeezeCommand : Obligations.SqueezeCommand := by
  intro s n herr hp
  have hlen := squeeze_length s.cfg.rot s.sponge n
  refine ⟨fun hn => ⟨Memory.store s.mem outBase (squeeze s.cfg.rot s.sponge n).2, ?_, fun j hj => ?_, hlen, ?_⟩,
    exec_squeeze_of_exceeds herr hp⟩
  · exact exec_squeeze_of_fits herr hp hn
  · exact byteAt_store_inside _ _ _ (by omega)
  · exact fun x hx => byteAt_store_outside _ _ _ (by omega)

/-! ### DERIVE -/

/-- R180: what DERIVE does with valid parameters. -/
theorem exec_derive_of_valid (herr : s.err = .none) (hv : validate s.cfg s.params = none) :
    exec .derive s = .next (deriveRun s).complete :=
  runCommand_ok herr rfl (deriveBody_of_valid hv)

/-- R79: an offset outside OUT[0 .. KLEN-1] and the matrix is no byte a derivation writes. -/
theorem not_derivationByte {q : Params} {x : Nat} (hout : x < outBase ∨ outBase + q.klen.toNat ≤ x)
    (hmat : x < matBase ∨ matBase + 8 * (q.nrows.toNat * q.ncols.toNat * 12) ≤ x) : ¬ derivationByte q x := by
  rintro (⟨hlo, hhi⟩ | ⟨hlo, hhi⟩) <;> omega

/-- Settles O40: the frame and the bytes written of `deriveRun`, which ends in DONE. -/
theorem deriveCompletesWithFrame : Obligations.DeriveCompletesWithFrame := by
  intro s herr hv
  have hrun := derivesTo_deriveRun hv
  have hdone := deriveRun_phase s
  obtain ⟨S, m, d, p, k, heq⟩ := hrun.frame
  have hframe := hrun.writes.frame
  rw [heq] at hdone hframe
  obtain rfl : p = .done := hdone
  exact ⟨S, m, k, d, by rw [exec_derive_of_valid herr hv, heq]; rfl,
    fun x hout hmat => hframe x (not_derivationByte hout hmat)⟩

end Sys2Proof.Machine
end

section
/-! PROOFS. The registers and the bytes of IN that no command writes (R23 to R25, R33). -/

namespace Sys2Proof.Machine

variable {i : Instr} {s t u : State}

/-- R64 to R66: the offset lies past IN, where OUT and MAT stand. -/
def aboveIn (x : Nat) : Prop := outBase ≤ x

/-- What command `i`, leading from `s` to `t`, has to keep. -/
structure KeepsRegisters (i : Instr) (s t : State) : Prop where
  cfg : t.cfg = s.cfg
  blkIn : t.blkIn = s.blkIn
  lcmd : t.lcmd = s.lcmd
  host : t.host = s.host
  reads : t.reads = s.reads
  blkOut : i ≠ .duplex → i ≠ .duplexR → t.blkOut = s.blkOut
  params : i ≠ .srst → i ≠ .deriveFixed → t.params = s.params
  wign : i ≠ .clrerr → i ≠ .srst → t.wign = s.wign
  below : ∀ x, x < outBase → Memory.byteAt t.mem x = Memory.byteAt s.mem x

/-- R79: a derivation writes above IN alone. -/
theorem aboveIn_of_derivationByte {q : Params} {x : Nat} (h : derivationByte q x) : aboveIn x := by
  have : outBase ≤ matBase := by decide
  unfold aboveIn
  rcases h with ⟨hlo, -⟩ | ⟨hlo, -⟩ <;> omega

/-- R66, R67: so does every row visit, whatever the cursors hold. -/
theorem aboveIn_of_inRow {r x : Nat} (h : s.inRow r x) : aboveIn x := by
  have : outBase ≤ matBase := by decide
  have hlo := h.1
  unfold State.cellAddr at hlo
  unfold aboveIn
  omega

/-- Two rows are above IN. -/
theorem aboveIn_of_inRows {r r' x : Nat} (h : s.inRow r x ∨ s.inRow r' x) : aboveIn x :=
  h.elim aboveIn_of_inRow aboveIn_of_inRow

/-- A body that changes S, the stores above IN, PHASE and the cursors alone keeps what every command has to. -/
theorem keepsRegisters_of_phaseFrame {W : Nat → Prop} (hf : phaseFrame s u) (hw : WritesOnly W s u)
    (hW : ∀ x, W x → aboveIn x) : KeepsRegisters i s u.complete := by
  have hbelow (x : Nat) (hx : x < outBase) := hw.frame x fun h => Nat.not_le.2 hx (hW x h)
  obtain ⟨S, m, d, p, k, rfl⟩ := hf
  exact ⟨rfl, rfl, rfl, rfl, rfl, fun _ _ => rfl, fun _ _ => rfl, fun _ _ => rfl, hbelow⟩

/-- So does one that changes S alone, or nothing. -/
theorem keepsRegisters_setSponge (S : Sponge) : KeepsRegisters i s (s.setSponge S).complete :=
  keepsRegisters_of_phaseFrame (phaseFrame_of_dataFrame (dataFrame_setSponge s S))
    ((WritesOnly.refl s).setSponge S) fun _ => id

/-- R119, R120: a duplexing changes S and BLK_OUT, and only DUPLEX and DUPLEX_R may. -/
theorem keepsRegisters_afterDuplex (hi : i = .duplex ∨ i = .duplexR) (r : Sponge × Block) :
    KeepsRegisters i s (s.afterDuplex r).complete :=
  ⟨rfl, rfl, rfl, rfl, rfl, fun hne hne' => absurd hi (not_or.2 ⟨hne, hne'⟩), fun _ _ => rfl, fun _ _ => rfl,
    fun _ _ => rfl⟩

/-- R213: an error entry changes ERR alone. -/
theorem keepsRegisters_raise (code : ErrCode) : KeepsRegisters i s (s.raise code).complete :=
  ⟨rfl, rfl, rfl, rfl, rfl, fun _ _ => rfl, fun _ _ => rfl, fun _ _ => rfl, fun _ _ => rfl⟩

theorem runCommand_keepsRegisters {legal : Phase → Bool} {body : State → Except ErrCode State}
    (h : runCommand legal body s = .next t) (hb : ∀ u, body s = .ok u → KeepsRegisters i s u.complete) :
    KeepsRegisters i s t :=
  runCommand_keeps h (keepsRegisters_setSponge s.sponge) keepsRegisters_raise fun u _ => hb u

/-- A command whose body raises no error. -/
theorem runCommand_total_keepsRegisters {legal : Phase → Bool} {f : State → State}
    (h : runCommand legal (fun s => .ok (f s)) s = .next t) (hf : KeepsRegisters i s (f s).complete) :
    KeepsRegisters i s t :=
  runCommand_keepsRegisters h fun u hu => by cases hu; exact hf

/-- R182: DERIVE_FIXED is DERIVE from other parameters, which it may change. -/
theorem KeepsRegisters.of_setParams {q : Params} (h : KeepsRegisters .deriveFixed (s.setParams q) t) :
    KeepsRegisters .deriveFixed s t where
  __ := h
  params _ hne := absurd rfl hne

/-- Every command, in every state, keeps what it has to. -/
theorem exec_keepsRegisters (h : exec i s = .next t) : KeepsRegisters i s t := by
  unfold exec at h
  cases i with
  | nop => exact runCommand_total_keepsRegisters (f := id) h (keepsRegisters_setSponge s.sponge)
  | clrerr =>
    cases h
    exact ⟨rfl, rfl, rfl, rfl, rfl, fun _ _ => rfl, fun _ _ => rfl, fun hne => absurd rfl hne, fun _ _ => rfl⟩
  | srst =>
    cases h
    exact ⟨rfl, rfl, rfl, rfl, rfl, fun _ _ => rfl, fun hne => absurd rfl hne, fun _ hne => absurd rfl hne,
      fun _ _ => rfl⟩
  | init | perm | permR | absorb => exact runCommand_total_keepsRegisters h (keepsRegisters_setSponge _)
  | duplex => exact runCommand_total_keepsRegisters h (keepsRegisters_afterDuplex (.inl rfl) _)
  | duplexR => exact runCommand_total_keepsRegisters h (keepsRegisters_afterDuplex (.inr rfl) _)
  | squeeze n =>
    refine runCommand_keepsRegisters h fun u hu => ?_
    obtain ⟨-, rfl⟩ := squeezeBody_ok hu
    exact keepsRegisters_of_phaseFrame (phaseFrame_of_dataFrame (dataFrame_squeezeToOut s n)) (squeezeToOut_writes n)
      fun _ hx => hx.1
  | mStart =>
    refine runCommand_keepsRegisters h fun u hu => ?_
    obtain ⟨-, rfl⟩ := validatedStart_ok hu
    have hstart := derivesTo_start s
    exact keepsRegisters_of_phaseFrame hstart.frame hstart.writes fun _ => aboveIn_of_derivationByte
  | mAbsorb =>
    exact runCommand_total_keepsRegisters h (keepsRegisters_of_phaseFrame (absorbBody_frame s)
      (((WritesOnly.refl s).nextDraw.setSponge _).setPhase _) fun _ => id)
  | mRow0 =>
    exact runCommand_total_keepsRegisters h (keepsRegisters_of_phaseFrame (row0Body_frame s)
      (row0Body_eq s ▸ (row0Columns_writes s).moveTo _) fun _ => aboveIn_of_inRow)
  | mRow1 =>
    exact runCommand_total_keepsRegisters h (keepsRegisters_of_phaseFrame (row1Body_frame s)
      (row1Body_eq s ▸ (row1Columns_writes s).moveTo _) fun _ => aboveIn_of_inRow)
  | mSetupRow =>
    exact runCommand_total_keepsRegisters h (keepsRegisters_of_phaseFrame (setupRowBody_frame s)
      (setupRowBody_eq s ▸ (setupColumns_writes _ _ _ s).moveTo _) fun _ => aboveIn_of_inRows)
  | mWanderRow =>
    exact runCommand_total_keepsRegisters h (keepsRegisters_of_phaseFrame (wanderRowBody_frame s)
      (wanderRowBody_eq s ▸ (wanderColumns_writes _ _ _ s).moveTo _) fun _ => aboveIn_of_inRows)
  | mWrapup =>
    exact runCommand_total_keepsRegisters h (keepsRegisters_of_phaseFrame (wrapupBody_frame s) (wrapupBody_writes s)
      fun _ hx => hx.1)
  | derive =>
    refine runCommand_keepsRegisters h fun u hu => ?_
    obtain ⟨hv, rfl⟩ := deriveBody_ok hu
    have hrun := derivesTo_deriveRun hv
    exact keepsRegisters_of_phaseFrame hrun.frame hrun.writes fun _ => aboveIn_of_derivationByte
  | deriveFixed =>
    refine runCommand_keepsRegisters h fun u hu => ?_
    obtain ⟨hv, rfl⟩ := deriveBody_ok (s := s.setParams (fixedParams s.cfg)) hu
    have hrun := derivesTo_deriveRun hv
    exact (keepsRegisters_of_phaseFrame hrun.frame hrun.writes fun _ => aboveIn_of_derivationByte).of_setParams

/-- Settles O59: each body changes S, PHASE, the cursors and the stores above IN alone, but for the commands named. -/
theorem commandsKeepRegisters : Obligations.CommandsKeepRegisters := by
  intro i s t h
  obtain ⟨hcfg, hblkIn, hlcmd, hhost, hreads, hblkOut, hparams, hwign, hbelow⟩ := exec_keepsRegisters h
  exact ⟨hcfg, hblkIn, hlcmd, hhost, hreads, hblkOut, hparams, hwign, hbelow⟩

end Sys2Proof.Machine
end

section
/-! PROOFS. The host window with no command in progress (20_memory.md): what each register reads, which writes are
ignored, and that a write is read back and disturbs no other offset. -/

namespace Sys2Proof.Machine

variable {s : State}

/-! ### Reads and writes by what the offset names -/

theorem hostRead_of_idle (h : s.busy = false) (offset : Nat) :
    s.hostRead offset = s.targetWord offset (target s.cfg offset) := by
  simp [State.hostRead, h]

theorem hostWrite_of_idle (h : s.busy = false) (offset : Nat) (v : Word) :
    s.hostWrite offset v = s.writeTarget offset v (target s.cfg offset) := by
  simp [State.hostWrite, h]

/-- R71(a): with a command in progress every write is ignored. -/
theorem hostWrite_of_busy (h : s.busy = true) (offset : Nat) (v : Word) : s.hostWrite offset v = s.ignoreWrite := by
  simp [State.hostWrite, h]

/-- R68: a write to a target whose write does nothing changes WIGN at most. -/
theorem hostWrite_of_readOnly {offset : Nat} {v : Word}
    (h : s.writeTarget offset v (target s.cfg offset) = s) :
    (∃ w, s.hostWrite offset v = { s with wign := w }) ∧ (s.busy = false → s.hostWrite offset v = s) := by
  refine ⟨?_, fun hb => (hostWrite_of_idle hb offset v).trans h⟩
  rcases Bool.eq_false_or_eq_true s.busy with hb | hb
  · exact ⟨true, hostWrite_of_busy hb offset v⟩
  · exact ⟨s.wign, (hostWrite_of_idle hb offset v).trans h⟩

/-- R63, R71(c): a control register that reads the same word whether or not a command is in progress. -/
theorem hostRead_of_defined {offset : Nat} {t : Target} (ht : target s.cfg offset = t)
    (h : s.targetWordBusy offset t = s.targetWord offset t) : s.hostRead offset = s.targetWord offset t := by
  unfold State.hostRead
  rw [ht]
  split
  · exact h
  · rfl

/-- R31: CAP_PROFILE reads 0 for DOC and 1 for REF. -/
theorem profileWord_eq (p : Profile) : profileWord p = if p = .doc then 0 else 1 := by
  cases p <;> rfl

/-- Settles O44: the seven offsets, one by one. -/
theorem constantRegisters : Obligations.ConstantRegisters := by
  intro s
  refine ⟨hostRead_of_defined (t := .id) rfl rfl, hostRead_of_defined (t := .capMatWords) rfl rfl,
    hostRead_of_defined (t := .capInBytes) rfl rfl, hostRead_of_defined (t := .capOutBytes) rfl rfl,
    hostRead_of_defined (t := .capFixedC) rfl rfl, hostRead_of_defined (t := .capFixedT) rfl rfl,
    (hostRead_of_defined (t := .capProfile) rfl rfl).trans (profileWord_eq _), fun offset v hmem => ?_⟩
  simp only [List.mem_cons, List.not_mem_nil, or_false] at hmem
  rcases hmem with rfl | rfl | rfl | rfl | rfl | rfl | rfl <;> exact hostWrite_of_readOnly rfl

/-- Settles O47: the write issues the command. -/
theorem cmdRegister : Obligations.CmdRegister :=
  ⟨fun s v hb => ⟨Config.latency s.draws, s.draws + 1, hostWrite_of_idle hb 0x040 v⟩,
    fun _ => hostRead_of_defined (t := .cmd) rfl rfl⟩

/-- Settles O50: the thirteen offsets, one by one. -/
theorem parameterAndCursorReads : Obligations.ParameterAndCursorReads := by
  intro s hb
  have hread := hostRead_of_idle hb
  exact ⟨hread 0x050, hread 0x058, hread 0x060, hread 0x068, hread 0x070, hread 0x078, hread 0x080, hread 0x088,
    hread 0x090, hread 0x098, hread 0x0A0, hread 0x0A8, hread 0x0B0⟩

/-- Settles O54: every field of `State.resetOf` is written out. -/
theorem resetControlState : Obligations.ResetControlState :=
  fun _ => ⟨rfl, rfl, rfl, rfl, rfl, rfl, rfl, rfl, rfl⟩

/-! ### STATUS (R28) -/

theorem packStatus_toNat (busy wign : Bool) (err phase : Nat) :
    (packStatus busy wign err phase).toNat = busy.toNat + 2 * wign.toNat + 16 * (err % 16) + 256 * (phase % 16) := by
  have := busy.toNat_le
  have := wign.toNat_le
  rw [packStatus, BitVec.toNat_ofNat, Nat.mod_eq_of_lt (by omega)]

/-- R28: the fields of STATUS and its zero bits, whatever its ERR and PHASE hold. -/
theorem packStatus_fields (busy wign : Bool) (err phase : Nat) :
    ((packStatus busy wign err phase).extractLsb' 0 1).toNat = busy.toNat ∧
    ((packStatus busy wign err phase).extractLsb' 1 1).toNat = wign.toNat ∧
    ((packStatus busy wign err phase).extractLsb' 2 2).toNat = 0 ∧
    ((packStatus busy wign err phase).extractLsb' 4 4).toNat = err % 16 ∧
    ((packStatus busy wign err phase).extractLsb' 8 4).toNat = phase % 16 ∧
    ((packStatus busy wign err phase).extractLsb' 12 52).toNat = 0 := by
  have := busy.toNat_le
  have := wign.toNat_le
  simp only [BitVec.extractLsb'_toNat, packStatus_toNat, Nat.shiftRight_eq_div_pow]
  omega

theorem ErrCode.code_lt (e : ErrCode) : e.code < 16 := by cases e <;> decide

theorem Phase.code_lt (p : Phase) : p.code < 16 := by cases p <;> decide

/-- Settles O45, field by field. -/
theorem statusLayout : Obligations.StatusLayout := by
  intro s hb
  have hread : s.hostRead 0x048 = packStatus false s.wign s.err.code s.phase.code := by
    rw [hostRead_of_idle hb, ← hb]
    rfl
  obtain ⟨hbusy, hwign, hzero, herr, hphase, hhigh⟩ := packStatus_fields false s.wign s.err.code s.phase.code
  rw [Nat.mod_eq_of_lt (ErrCode.code_lt _)] at herr
  rw [Nat.mod_eq_of_lt (Phase.code_lt _)] at hphase
  rw [hread]
  refine ⟨BitVec.eq_of_toNat_eq hbusy, BitVec.eq_of_toNat_eq (hwign.trans ?_), BitVec.eq_of_toNat_eq hzero, herr,
    hphase, BitVec.eq_of_toNat_eq hhigh, fun v => hostWrite_of_idle hb 0x048 v⟩
  cases s.wign <;> rfl

/-! ### A write is read back and disturbs no other offset -/

/-- R63: the offset of a parameter register. -/
def ParamReg.offset : ParamReg → Nat
  | .klen => 0x050
  | .pwdlen => 0x058
  | .saltlen => 0x060
  | .tcost => 0x068
  | .nrows => 0x070
  | .ncols => 0x078

theorem controlTarget_eq_param {offset : Nat} {r : ParamReg} (h : controlTarget offset = .param r) :
    offset = r.offset := by
  unfold controlTarget at h
  split at h <;> cases h <;> rfl

/-- Below 0x100 stands no word of S, BLK_IN and BLK_OUT (R63). -/
theorem controlTarget_ne_word (offset : Nat) :
    (∀ i, controlTarget offset ≠ .sponge i) ∧ (∀ k, controlTarget offset ≠ .blkIn k) := by
  unfold controlTarget
  split <;> simp

section Offsets

variable {cfg : Config} {offset : Nat}

theorem target_eq_param {r : ParamReg} (h : target cfg offset = .param r) : offset = r.offset := by
  unfold target at h
  split_ifs at h
  exact controlTarget_eq_param h

theorem target_eq_sponge {i : Fin 16} (h : target cfg offset = .sponge i) (halign : offset % 8 = 0) :
    offset = 0x100 + 8 * i := by
  have hctl := (controlTarget_ne_word offset).1 i
  unfold target at h
  split_ifs at h
  · exact absurd h hctl
  · cases h
    simp only [Fin.val_ofNat]
    omega

theorem target_eq_blkIn {k : Fin 12} (h : target cfg offset = .blkIn k) (halign : offset % 8 = 0) :
    offset = 0x180 + 8 * k := by
  have hctl := (controlTarget_ne_word offset).2 k
  unfold target at h
  split_ifs at h
  · exact absurd h hctl
  · cases h
    simp only [Fin.val_ofNat]
    omega

end Offsets

@[simp] theorem Params.get_set_same (q : Params) (r : ParamReg) (v : Word) : (q.set r v).get r = v := by
  cases r <;> rfl

theorem Params.get_set_ne (q : Params) {r r' : ParamReg} (h : r' ≠ r) (v : Word) : (q.set r v).get r' = q.get r' := by
  cases r <;> cases r' <;> simp_all [Params.get, Params.set]

section Targets

variable {offset other : Nat} {t : Target} {v : Word}

/-- R69: a parameter write shows in its own register alone. -/
theorem targetWord_setParams {r : ParamReg} (h : t ≠ .param r) :
    (s.setParams (s.params.set r v)).targetWord other t = s.targetWord other t := by
  cases t with
  | param r' => exact Params.get_set_ne _ (fun hr => h (congrArg _ hr)) v
  | _ => rfl

/-- R21: a write of a word of S shows there alone. -/
theorem targetWord_hostSetSponge {i : Fin 16} (h : t ≠ .sponge i) :
    (s.hostSetSponge i v).targetWord other t = s.targetWord other t := by
  cases t with
  | sponge j => exact Vector.getElem_set_ne i.isLt j.isLt fun hij => h (congrArg _ (Fin.ext hij.symm))
  | _ => rfl

/-- R23: a write of a word of BLK_IN shows there alone. -/
theorem targetWord_hostSetBlkIn {k : Fin 12} (h : t ≠ .blkIn k) :
    (s.hostSetBlkIn k v).targetWord other t = s.targetWord other t := by
  cases t with
  | blkIn j => exact Vector.getElem_set_ne k.isLt j.isLt fun hij => h (congrArg _ (Fin.ext hij.symm))
  | _ => rfl

/-- R62: a write of a word of the stores is read back. -/
theorem windowWord_storeBytes_same : (s.storeBytes offset (leBytes v)).windowWord offset = v := by
  have := load_store s.mem s.draws offset (leBytes v)
  rw [leBytes_length] at this
  simp [State.windowWord, State.loadBytes, this]

/-- R62: two different aligned words of the stores share no byte. -/
theorem windowWord_storeBytes_ne (halign : offset % 8 = 0) (halign' : other % 8 = 0) (hne : other ≠ offset) :
    (s.storeBytes offset (leBytes v)).windowWord other = s.windowWord other := by
  have := load_store_outside s.mem s.draws other 8 offset (leBytes v) (by rw [leBytes_length]; omega)
  simp [State.windowWord, State.loadBytes, this]

/-- R33, R35: a write to IN or MAT shows in its own word alone. -/
theorem targetWord_storeBytes (halign : offset % 8 = 0) (halign' : other % 8 = 0) (hne : other ≠ offset) :
    (s.storeBytes offset (leBytes v)).targetWord other t = s.targetWord other t := by
  cases t with
  | inBuf | outBuf | mat => exact windowWord_storeBytes_ne halign halign' hne
  | _ => rfl

end Targets

/-- R69: the parameter registers are unlocked in IDLE and DONE. -/
theorem midDerivation_eq_false (h : s.phase = .idle ∨ s.phase = .done) : s.phase.midDerivation = false := by
  rcases h with h | h <;> rw [h] <;> rfl

/-- What a host write leaves is what the window reads afterwards, the configuration, and so the map, being kept. -/
theorem hostRead_after_write {offset : Nat} {v : Word} {t : State} (hb : s.busy = false)
    (hw : s.writeTarget offset v (target s.cfg offset) = t) (hcfg : t.cfg = s.cfg) (htb : t.busy = s.busy)
    (hsame : t.targetWord offset (target s.cfg offset) = v)
    (hother : ∀ other, other % 8 = 0 → other ≠ offset →
      t.targetWord other (target s.cfg other) = s.targetWord other (target s.cfg other)) :
    (s.hostWrite offset v).hostRead offset = v ∧
    ∀ other : Nat, admitted other 8 = true → other ≠ offset →
      (s.hostWrite offset v).hostRead other = s.hostRead other := by
  rw [hostWrite_of_idle hb, hw]
  have hread (o : Nat) : t.hostRead o = t.targetWord o (target s.cfg o) :=
    hcfg ▸ hostRead_of_idle (htb.trans hb) o
  refine ⟨(hread offset).trans hsame, fun other hadm hne => ?_⟩
  rw [hread, hostRead_of_idle hb]
  exact hother other ((admitted_iff _ _).1 hadm).2.1 hne

/-- Settles O51: a register's offset is the only one that names it, and aligned words of the stores share no byte. -/
theorem writeThenRead : Obligations.WriteThenRead := by
  intro s offset v _ hb hadm hphase htarget
  have halign := ((admitted_iff _ _).1 hadm).2.1
  have hread (t : State) := hostRead_after_write (t := t) (v := v) (offset := offset) hb
  rcases htarget with ⟨i, ht⟩ | ⟨k, ht⟩ | ⟨r, ht⟩ | ht
  · refine hread (s.hostSetSponge i v) (by rw [ht]; rfl) rfl rfl ?_ fun other ho hne => ?_
    · rw [ht]
      exact Vector.getElem_set_self i.isLt
    · exact targetWord_hostSetSponge fun h =>
        hne ((target_eq_sponge h ho).trans (target_eq_sponge ht halign).symm)
  · refine hread (s.hostSetBlkIn k v) (by rw [ht]; rfl) rfl rfl ?_ fun other ho hne => ?_
    · rw [ht]
      exact Vector.getElem_set_self k.isLt
    · exact targetWord_hostSetBlkIn fun h =>
        hne ((target_eq_blkIn h ho).trans (target_eq_blkIn ht halign).symm)
  · have hunlocked := midDerivation_eq_false (hphase ⟨r, ht⟩)
    refine hread (s.setParams (s.params.set r v)) (by simp [ht, State.writeTarget, hunlocked]) rfl rfl ?_
      fun other _ hne => ?_
    · rw [ht]
      exact Params.get_set_same _ r v
    · exact targetWord_setParams fun h => hne ((target_eq_param h).trans (target_eq_param ht).symm)
  · refine hread (s.storeBytes offset (leBytes v)) (by rcases ht with ht | ht <;> rw [ht] <;> rfl) rfl rfl ?_
      fun other ho hne => targetWord_storeBytes halign ho hne
    rcases ht with ht | ht <;> rw [ht] <;> exact windowWord_storeBytes_same

end Sys2Proof.Machine
end

section
/-! PROOFS. One step of the machine (R61, R71, R212, R246): which commands the engine's turn executes, that a command in
progress completes, what the host's turn does, and where the machine stops. -/

namespace Sys2Proof.Machine

variable {s t : State} {e : HostEvent} {rest : List HostEvent} {i : Instr}

/-! ### The engine's turn -/

theorem engineTurn_of_due (hb : s.busy = true) (h : s.engineDelay = 0 ∨ hostWaits s.host = true) :
    engineTurn s = true := by
  rcases h with h | h <;> simp [engineTurn, hb, h]

theorem engineStep_of_decode (h : decode s.lcmd = .ok i) : engineStep s = exec i s := by
  simp [engineStep, h]

theorem engineStep_of_illegal {e : IllegalWord} (h : decode s.lcmd = .error e) : engineStep s = runIllegal s := by
  simp [engineStep, h]

/-- R85: what the decoder reads from a table word it reads from the word written to CMD. -/
theorem decode_of_decodeTableWord {nbits w : Nat} (h : decodeTableWord nbits w = some i) :
    decode (BitVec.ofNat 64 (w % 2 ^ nbits)) = .ok i := by
  unfold decodeTableWord decodeOption at h
  split at h
  next hd => rw [hd, Option.some.inj h]
  · cases h

/-- Settles O6: the engine's turn decodes LCMD, and `withFetchWord` gives the engine its turn. -/
theorem stepRunsDecodedCommand : Obligations.StepRunsDecodedCommand := by
  refine ⟨fun s i hb hdue hd => ?_, fun s e hb hdue hd => ?_, fun s i nbits w hd => ?_⟩
  · rw [step_of_engineTurn (engineTurn_of_due hb hdue), engineStep_of_decode hd]
  · rw [step_of_engineTurn (engineTurn_of_due hb hdue), engineStep_of_illegal hd]
  · have hlcmd : decode (s.withFetchWord nbits w).lcmd = .ok i := decode_of_decodeTableWord hd
    exact (step_of_engineTurn (engineTurn_withCommand s _)).trans (engineStep_of_decode hlcmd)

/-! ### The host's turn -/

theorem hostStep_cons (h : s.host = e :: rest) : hostStep s = hostEvent e { s with host := rest } := by
  simp [hostStep, h]

theorem hostEvent_read_of_admitted {offset width : Nat} (h : admitted offset width = true) :
    hostEvent (.read offset width) s = .next (s.tick.recordRead (s.hostRead offset)) := by
  simp [hostEvent, h]

theorem hostEvent_write_of_admitted {offset width : Nat} {v : Word} (h : admitted offset width = true) :
    hostEvent (.write offset width v) s = .next (s.tick.hostWrite offset v) := by
  simp [hostEvent, h]

/-- Settles O52: the event is removed, the count goes down, and the value is recorded. -/
theorem hostReadHasNoSideEffect : Obligations.HostReadHasNoSideEffect := by
  intro s offset rest hhost halign hrange hturn
  refine ⟨s.engineDelay - 1, s.draws + 1, ?_⟩
  rw [step_of_hostTurn hturn, hostStep_cons hhost,
    hostEvent_read_of_admitted ((admitted_iff _ _).2 ⟨rfl, halign, hrange⟩)]
  rfl

/-- Settles O53: the event is removed, the count goes down, and the write is made. -/
theorem stepMakesHostWrite : Obligations.StepMakesHostWrite := by
  intro s offset v rest hhost halign hrange hturn
  rw [step_of_hostTurn hturn, hostStep_cons hhost,
    hostEvent_write_of_admitted ((admitted_iff _ _).2 ⟨rfl, halign, hrange⟩)]
  rfl

/-! ### A command in progress completes -/

/-- R71, R246: a host event that can come while a command is in progress is one access fewer to pass, or a reset, which
abandons the command. -/
theorem hostStep_of_busy (hb : s.busy = true) (hw : hostWaits s.host = false) :
    ∃ t, hostStep s = .next t ∧ (t.busy = false ∨ t.busy = true ∧ t.engineDelay = s.engineDelay - 1) := by
  cases hhost : s.host with
  | nil => rw [hhost] at hw; cases hw
  | cons e rest =>
    rw [hhost] at hw
    rw [hostStep_cons hhost]
    cases e with
    | wait => cases hw
    | reset => exact ⟨_, rfl, .inl rfl⟩
    | read offset width => exact ⟨_, hostEvent_read_of_admitted (by simpa [hostWaits] using hw), .inr ⟨hb, rfl⟩⟩
    | write offset width v =>
      have hignored := hostWrite_of_busy (s := ({ s with host := rest } : State).tick) hb offset v
      refine ⟨_, hostEvent_write_of_admitted (by simpa [hostWaits] using hw), ?_⟩
      rw [hignored]
      exact .inr ⟨hb, rfl⟩

/-- R246: a step with a command in progress does not stop the machine, and completes the command, abandons it, or counts
one access. -/
theorem step_of_busy (hb : s.busy = true) :
    ∃ t, step s = .next t ∧ (t.busy = false ∨ t.busy = true ∧ t.engineDelay + 1 = s.engineDelay) := by
  by_cases hdue : s.engineDelay = 0 ∨ hostWaits s.host = true
  · rw [step_of_engineTurn (engineTurn_of_due hb hdue)]
    obtain ⟨t, ht, hdone⟩ := engineStep_next s
    exact ⟨t, ht, .inl hdone⟩
  · obtain ⟨hdelay, hw⟩ := not_or.1 hdue
    rw [Bool.not_eq_true] at hw
    rw [step_of_hostTurn (by simp [engineTurn, hdelay, hw])]
    obtain ⟨t, ht, h⟩ := hostStep_of_busy hb hw
    exact ⟨t, ht, h.imp_right fun h => ⟨h.1, by omega⟩⟩

theorem run_succ_of_step {M : Host.Core} {s t : M.State} (h : M.step s = .next t) (k : Nat) :
    M.run (k + 1) s = M.run k t := by
  rw [Host.Core.run, h]

/-- Settles O13, by induction on the count of accesses still to pass. -/
theorem commandCompletes : Obligations.CommandCompletes := by
  intro s hb
  induction hn : s.engineDelay generalizing s with
  | zero =>
    obtain ⟨t, ht, hdone | ⟨-, hcount⟩⟩ := step_of_busy hb
    · exact ⟨1, t, le_rfl, run_succ_of_step (M := core) ht 0, hdone⟩
    · omega
  | succ n ih =>
    obtain ⟨t, ht, hdone | ⟨hbusy, hcount⟩⟩ := step_of_busy hb
    · exact ⟨1, t, by omega, run_succ_of_step (M := core) ht 0, hdone⟩
    · obtain ⟨k, u, hk, hrun, hdone⟩ := ih t hbusy (by omega)
      exact ⟨k + 1, u, by omega, (run_succ_of_step (M := core) ht k).trans hrun, hdone⟩

/-! ### Where the machine stops -/

/-- R61, U4: the events the host is stuck at. -/
theorem hostEvent_eq_fault_iff {f : Fault} :
    hostEvent e s = .fault f ↔ ∃ offset width, .hostStuck offset width = f ∧ admitted offset width = false ∧
      (e = .read offset width ∨ ∃ v, e = .write offset width v) := by
  cases e with
  | wait | reset => simp [hostEvent]
  | read offset width => cases h : admitted offset width <;> simp [hostEvent, h]
  | write offset width v => cases h : admitted offset width <;> simp [hostEvent, h]

theorem hostEvent_ne_refused (e : HostEvent) (s : State) (r : Refusal) : hostEvent e s ≠ .refused r := by
  cases e with
  | wait | reset => exact nofun
  | read offset width | write offset width v =>
    unfold hostEvent
    dsimp only
    split <;> exact nofun

theorem hostStep_eq_fault_iff {f : Fault} :
    hostStep s = .fault f ↔ ∃ e rest, s.host = e :: rest ∧ hostEvent e { s with host := rest } = .fault f := by
  cases h : s.host <;> simp [hostStep, h]

theorem hostStep_ne_refused (s : State) (r : Refusal) : hostStep s ≠ .refused r := by
  cases h : s.host with
  | nil => simp [hostStep, h]
  | cons e rest => rw [hostStep_cons h]; exact hostEvent_ne_refused e _ r

theorem not_admitted_iff (offset width : Nat) :
    admitted offset width = false ↔ ¬ (width = 8 ∧ offset % 8 = 0 ∧ offset < 2 ^ 40) := by
  rw [← admitted_iff, Bool.not_eq_true]

/-- Settles O14: a command in progress never stops the machine, and with none in progress the step is one host event. -/
theorem stepStopsOnlyWhenHostStuck : Obligations.StepStopsOnlyWhenHostStuck := by
  intro s
  cases hb : s.busy with
  | true =>
    obtain ⟨t, ht, -⟩ := step_of_busy hb
    simp [ht]
  | false =>
    rw [step_of_hostTurn (engineTurn_of_idle hb)]
    refine ⟨hostStep_ne_refused s, fun f => ?_⟩
    simp only [hostStep_eq_fault_iff, hostEvent_eq_fault_iff, not_admitted_iff]
    constructor
    · rintro ⟨e, rest, hhost, offset, width, hf, hadm, rfl | ⟨v, rfl⟩⟩
      · exact ⟨trivial, offset, width, hf.symm, hadm, .inl ⟨rest, hhost⟩⟩
      · exact ⟨trivial, offset, width, hf.symm, hadm, .inr ⟨v, rest, hhost⟩⟩
    · rintro ⟨-, offset, width, hf, hadm, ⟨rest, hhost⟩ | ⟨v, rest, hhost⟩⟩
      · exact ⟨_, rest, hhost, offset, width, hf.symm, hadm, .inl rfl⟩
      · exact ⟨_, rest, hhost, offset, width, hf.symm, hadm, .inr ⟨v, rfl⟩⟩

end Sys2Proof.Machine
end

section
/-! PROOFS. The host window (20_memory.md): what an offset names, reads while a command is in progress, ignored
writes. -/

namespace Sys2Proof.Machine

variable {s : State} {cfg : Config} {offset : Nat}

/-! ### Reads while a command is in progress (R71) -/

theorem hostRead_status_of_busy (h : s.busy = true) : s.hostRead 0x048 = s.busyStatusWord := by
  unfold State.hostRead
  rw [if_pos h]
  rfl

/-- R71(c): CMD, IN, BLK_IN and an unmapped offset read their defined value, which BUSY is no part of. -/
theorem hostRead_eq_idle (h : target s.cfg offset ∈ [Target.cmd, .inBuf, .unmapped] ∨
      ∃ k, target s.cfg offset = .blkIn k) :
    s.hostRead offset = ({ s with busy := false } : State).hostRead offset := by
  simp only [List.mem_cons, List.not_mem_nil, or_false] at h
  rcases h with (h | h | h) | ⟨k, h⟩ <;>
    exact (hostRead_of_defined h rfl).trans (hostRead_of_defined (s := { s with busy := false }) h rfl).symm

/-- Settles O46: the fields of the STATUS word, and the offsets whose value R71(c) defines. -/
theorem busyReads : Obligations.BusyReads := by
  intro s hb
  obtain ⟨hbusy, hwign, hzero, -, -, hhigh⟩ := packStatus_fields true s.wign (Config.freeWord s.draws).toNat
    ((Config.freeWord s.draws).toNat / 16)
  rw [hostRead_status_of_busy hb]
  refine ⟨BitVec.eq_of_toNat_eq hbusy, BitVec.eq_of_toNat_eq (hwign.trans ?_), BitVec.eq_of_toNat_eq hzero,
    BitVec.eq_of_toNat_eq hhigh, fun offset => hostRead_eq_idle⟩
  cases s.wign <;> rfl

/-! ### Ignored writes (R68, R69, R71) -/

/-- R69: the parameter registers are locked in phases 1..6. -/
theorem midDerivation_eq_true (hidle : s.phase ≠ .idle) (hdone : s.phase ≠ .done) :
    s.phase.midDerivation = true := by
  cases hp : s.phase with
  | idle => exact absurd hp hidle
  | done => exact absurd hp hdone
  | _ => rfl

theorem target_param_of_mem (h : offset ∈ [0x050, 0x058, 0x060, 0x068, 0x070, 0x078]) :
    ∃ r, target cfg offset = .param r := by
  simp only [List.mem_cons, List.not_mem_nil, or_false] at h
  rcases h with rfl | rfl | rfl | rfl | rfl | rfl <;> exact ⟨_, rfl⟩

/-- Settles O48, by what the offset names. -/
theorem ignoredWrites : Obligations.IgnoredWrites := by
  refine ⟨fun s offset v hb => hostWrite_of_busy hb offset v, fun s offset v hb hidle hdone hmem => ?_,
    fun s offset v hb htarget => ?_⟩
  · obtain ⟨r, ht⟩ := target_param_of_mem (cfg := s.cfg) hmem
    rw [hostWrite_of_idle hb, ht, State.writeTarget, if_pos (midDerivation_eq_true hidle hdone)]
    rfl
  · rw [hostWrite_of_idle hb]
    simp only [List.mem_cons, List.not_mem_nil, or_false] at htarget
    rcases htarget with (h | h | h | h | h | h | h | h | h | h) | ⟨r, h⟩ | ⟨k, h⟩ <;> rw [h] <;> rfl

/-! ### The map of the window (R63 to R66, R68) -/

/-- R63: the index of the word at an offset of S, BLK_IN or BLK_OUT. -/
theorem wordIndex_eq {n i : Nat} [NeZero n] (base : Nat) (h : i < n) :
    Fin.ofNat n ((base + 8 * i - base) / 8) = ⟨i, h⟩ := by
  apply Fin.ext
  rw [Fin.val_ofNat, Nat.add_sub_cancel_left, Nat.mul_div_cancel_left i (by decide), Nat.mod_eq_of_lt h]

theorem target_of_sponge {i : Nat} (h : i < 16) : target cfg (0x100 + 8 * i) = .sponge ⟨i, h⟩ := by
  unfold target
  rw [if_neg (by omega), if_pos (by omega), wordIndex_eq _ h]

theorem target_of_blkIn {k : Nat} (h : k < 12) : target cfg (0x180 + 8 * k) = .blkIn ⟨k, h⟩ := by
  unfold target
  rw [if_neg (by omega), if_neg (by omega), if_pos (by omega), wordIndex_eq _ h]

theorem target_of_blkOut {k : Nat} (h : k < 12) : target cfg (0x200 + 8 * k) = .blkOut ⟨k, h⟩ := by
  unfold target
  rw [if_neg (by omega), if_neg (by omega), if_neg (by omega), if_pos (by omega),
    wordIndex_eq _ h]

/-- R63 to R66: past the registers an offset names the store it lies in. -/
theorem target_of_past_registers (h : 0x260 ≤ offset) :
    target cfg offset =
      if inBase ≤ offset ∧ offset < inBase + cfg.inBytes then .inBuf
      else if outBase ≤ offset ∧ offset < outBase + cfg.outBytes then .outBuf
      else if matBase ≤ offset ∧ offset < matBase + 8 * cfg.matWords then .mat
      else .unmapped := by
  unfold target
  rw [if_neg (by omega), if_neg (by omega), if_neg (by omega), if_neg (by omega)]

/-- R63: the registers below 0x100 leave 0x038 and everything from 0x0B8 on unmapped. -/
theorem controlTarget_eq_unmapped (h : offset = 0x038 ∨ 0x0B8 ≤ offset) : controlTarget offset = .unmapped := by
  unfold controlTarget
  split
  case h_23 => rfl
  all_goals omega

/-- R68: an offset in none of the mapped ranges. -/
theorem target_eq_unmapped
    (h : offset = 0x038 ∨ (0x0B8 ≤ offset ∧ offset < 0x100) ∨ (0x1E0 ≤ offset ∧ offset < 0x200) ∨ 0x260 ≤ offset)
    (hin : ¬ (inBase ≤ offset ∧ offset < inBase + cfg.inBytes))
    (hout : ¬ (outBase ≤ offset ∧ offset < outBase + cfg.outBytes))
    (hmat : ¬ (matBase ≤ offset ∧ offset < matBase + 8 * cfg.matWords)) : target cfg offset = .unmapped := by
  unfold target
  by_cases hctl : offset < 0x100
  · rw [if_pos hctl, controlTarget_eq_unmapped (by omega)]
  · rw [if_neg hctl, if_neg (by omega), if_neg (by omega), if_neg (by omega), if_neg hin, if_neg hout, if_neg hmat]

section Stores

variable (hlegal : cfg.Legal)
include hlegal

/-- R7, R64: the stores follow each other in the window, IN, OUT and MAT. -/
theorem stores_ordered :
    0x260 ≤ inBase ∧ inBase + cfg.inBytes ≤ outBase ∧ outBase + cfg.outBytes ≤ matBase := by
  obtain ⟨-, ⟨-, -, hin⟩, ⟨-, -, hout⟩, -⟩ := hlegal
  unfold inBase outBase matBase
  omega

theorem target_of_inBuf {j : Nat} (h : j < cfg.inBytes) : target cfg (inBase + j) = .inBuf := by
  obtain ⟨hreg, -⟩ := stores_ordered hlegal
  rw [target_of_past_registers (by omega), if_pos (by omega)]

theorem target_of_outBuf {j : Nat} (h : j < cfg.outBytes) : target cfg (outBase + j) = .outBuf := by
  obtain ⟨hreg, hin, -⟩ := stores_ordered hlegal
  rw [target_of_past_registers (by omega), if_neg (by omega), if_pos (by omega)]

theorem target_of_mat {j : Nat} (h : j < 8 * cfg.matWords) : target cfg (matBase + j) = .mat := by
  obtain ⟨hreg, hin, hout⟩ := stores_ordered hlegal
  rw [target_of_past_registers (by omega), if_neg (by omega), if_neg (by omega), if_pos (by omega)]

end Stores

/-- R62: a written word of a store reads as written. -/
theorem windowWord_of_holds {w : Word} (h : s.holds offset (leBytes w)) : s.windowWord offset = w := by
  rw [State.windowWord, State.loadBytes, ← leBytes_length w, load_of_written h, leWord_leBytes]

/-- Settles O49, range by range. -/
theorem windowMap : Obligations.WindowMap := by
  intro s hlegal hb
  refine ⟨fun i h => ?_, fun k h => ?_, fun k h => ?_, fun j w h hold => ?_, fun j w h hold => ?_,
    fun j w h hold => ?_, fun offset _ hoff hin hout hmat => ?_⟩ <;> rw [hostRead_of_idle hb]
  · rw [target_of_sponge h]; rfl
  · rw [target_of_blkIn h]; rfl
  · rw [target_of_blkOut h]; rfl
  · exact (congrArg _ (target_of_inBuf hlegal h)).trans (windowWord_of_holds hold)
  · exact (congrArg _ (target_of_outBuf hlegal h)).trans (windowWord_of_holds hold)
  · exact (congrArg _ (target_of_mat hlegal (by omega))).trans (windowWord_of_holds hold)
  · rw [target_eq_unmapped hoff hin hout hmat]; rfl

end Sys2Proof.Machine
end

section
/-! PROOFS. M_ROW0 (R152), and what every phase command completes with, whatever the stores hold (R151 to R158). -/

namespace Sys2Proof.Machine

variable {s t u : State} {i : Instr} {n : Phase × Cursor}

/-- What holds before the first column of a row and is carried from each column to the next holds after the row. -/
theorem columns_induction {P : Nat → State → Prop} {f : State → Nat → State} (h0 : P 0 s)
    (hnext : ∀ c t, c < s.params.ncols.toNat → P c t → P (c + 1) (f t c)) :
    P s.params.ncols.toNat (s.columns f) := by
  have hfirst (c : Nat) (hc : c ≤ s.params.ncols.toNat) : P c ((List.range c).foldl f s) := by
    induction c with
    | zero => exact h0
    | succ c ih =>
      rw [List.range_succ, List.foldl_append]
      exact hnext c _ hc (ih (by omega))
  exact hfirst _ le_rfl

/-- R136: a phase step in its phase runs its body. -/
theorem runCommand_phaseStep {p : Phase} {f : State → State} (herr : s.err = .none) (hp : s.phase = p) :
    runCommand (onlyIn p) (fun s => .ok (f s)) s = .next (f s).complete :=
  runCommand_ok herr ((onlyIn_iff p _).2 hp) rfl

/-! ### M_ROW0 -/

/-- Different columns have different mirrored columns. -/
theorem mirror_ne {C c i : Nat} (hi : i < c) (hc : c < C) : C - 1 - c ≠ C - 1 - i := by omega

/-- The state `t` that the first `c` columns of M_ROW0 begun in `s` leave: S, and the cells filled so far, from the last
column backward. -/
structure Row0Filled (s : State) (c : Nat) (t : State) : Prop where
  frame : ∃ m, t = { s with sponge := (p1 s.cfg.rot)^[c] s.sponge, mem := m }
  filled : ∀ i, i < c → t.cellHolds 0 (s.params.ncols.toNat - 1 - i) (rate ((p1 s.cfg.rot)^[i] s.sponge))

/-- R152: one column more. -/
theorem Row0Filled.next {c : Nat} (hc : c < s.params.ncols.toNat) (h : Row0Filled s c t) :
    Row0Filled s (c + 1) (row0Column t c) := by
  obtain ⟨⟨m, rfl⟩, hfilled⟩ := h
  constructor
  case frame =>
    rw [Function.iterate_succ_apply']
    exact ⟨_, rfl⟩
  case filled =>
    intro i hi
    refine cellHolds_congr (State.setSponge_params _ _) (State.setSponge_mem _ _) ?_
    rcases Nat.lt_succ_iff_lt_or_eq.1 hi with hi | rfl
    · exact writeCell_keeps_cell (mirror_lt hc) (mirror_lt (hi.trans hc)) (.inr (mirror_ne hi hc)) (hfilled i hi)
    · exact writeCell_cellHolds _ _ _ _

/-- R152: all columns. -/
theorem row0Filled_columns (s : State) : Row0Filled s s.params.ncols.toNat (s.columns row0Column) :=
  columns_induction ⟨⟨s.mem, rfl⟩, fun i hi => absurd hi (Nat.not_lt_zero i)⟩ fun _ _ => Row0Filled.next

/-- Settles O29: each column writes its own cell and runs one P1. -/
theorem mRow0Command : Obligations.MRow0Command := by
  intro s herr hp C
  obtain ⟨⟨m, hframe⟩, hfilled⟩ := row0Filled_columns s
  have hwrites := (row0Columns_writes s).frame
  rw [hframe] at hfilled hwrites
  refine ⟨m, ?_, fun i hi => cellHolds_congr rfl rfl (hfilled i hi), fun x hx => hwrites x ?_⟩
  · refine (runCommand_phaseStep herr hp).trans ?_
    rw [row0Body_eq, hframe]
    rfl
  · rintro ⟨hlo, hhi⟩
    omega

/-! ### Every phase command -/

/-- R152 to R154, R156: the rows a phase command begun in `s` writes. -/
def rowWritten (i : Instr) (s : State) (r : Nat) : Prop :=
  (i = .mRow0 ∧ r = 0) ∨ (i = .mRow1 ∧ r = 1) ∨
    (i = .mSetupRow ∧ (r = s.cursor.row.toNat ∨ r = s.cursor.rowa.toNat)) ∨
    (i = .mWanderRow ∧ (r = s.cursor.row.toNat ∨ r = s.wanderRowa))

/-- R79: the bytes a phase command begun in `s` writes. -/
def phaseCommandByte (i : Instr) (s : State) (x : Nat) : Prop :=
  (i = .mWrapup ∧ outBase ≤ x ∧ x < outBase + s.params.klen.toNat) ∨ ∃ r, rowWritten i s r ∧ s.inRow r x

/-- Command `i` begun in `s` completes with the data of `u` and with PHASE and cursors `n`, and writes only what its rule
names. -/
structure PhaseCommandLeaves (i : Instr) (s u : State) (n : Phase × Cursor) : Prop where
  completes : exec i s = .next (u.moveTo n).complete
  frame : dataFrame s u
  writes : WritesOnly (phaseCommandByte i s) s u
  mem : i = .mAbsorb → u.mem = s.mem
  cursor : i = .mAbsorb ∨ i = .mRow0 ∨ i = .mWrapup → n.2 = s.cursor
  row1 : i = .mRow1 → n.2.prev = s.cursor.prev ∧ n.2.rowa = s.cursor.rowa ∧ n.2.window = s.cursor.window ∧
    n.2.gap = s.cursor.gap
  wander : i = .mWanderRow → n.2.window = s.cursor.window ∧ n.2.gap = s.cursor.gap

/-- R144: EnterWandering writes no cursor but TAU, ROW and STEP. -/
theorem afterEnterWandering_keeps (q : Params) (k : Cursor) :
    (afterEnterWandering q k).2.prev = k.prev ∧ (afterEnterWandering q k).2.rowa = k.rowa ∧
      (afterEnterWandering q k).2.window = k.window ∧ (afterEnterWandering q k).2.gap = k.gap := by
  unfold afterEnterWandering
  split <;> exact ⟨rfl, rfl, rfl, rfl⟩

/-- R153: nor does M_ROW1. -/
theorem afterRow1_keeps (q : Params) (k : Cursor) :
    (afterRow1 q k).2.prev = k.prev ∧ (afterRow1 q k).2.rowa = k.rowa ∧
      (afterRow1 q k).2.window = k.window ∧ (afterRow1 q k).2.gap = k.gap := by
  unfold afterRow1
  split
  · exact ⟨rfl, rfl, rfl, rfl⟩
  · exact afterEnterWandering_keeps q k

/-- A command that changes data and PHASE alone moves no cursor. -/
theorem setPhase_eq_moveTo (h : dataFrame s u) (p : Phase) : u.setPhase p = u.moveTo (p, s.cursor) := by
  obtain ⟨S, m, d, rfl⟩ := h
  rfl

/-- R158: the data M_WRAPUP leaves. -/
def State.wrappedUp (s : State) : State :=
  (s.nextDraw.setSponge (duplexFull s.cfg.rot s.sponge (s.readCell s.cursor.rowa.toNat 0)).1).squeezeToOut
    s.params.klen.toNat

theorem wrappedUp_frame (s : State) : dataFrame s s.wrappedUp :=
  dataFrame_trans (dataFrame_nextDraw s) (dataFrame_trans (dataFrame_setSponge _ _) (dataFrame_squeezeToOut _ _))

theorem wrappedUp_writes (s : State) :
    WritesOnly (fun x => outBase ≤ x ∧ x < outBase + s.params.klen.toNat) s s.wrappedUp :=
  ((WritesOnly.refl s).nextDraw.setSponge _).trans (squeezeToOut_writes s.params.klen.toNat)

theorem wrapupBody_eq (s : State) : wrapupBody s = s.wrappedUp.moveTo (.done, s.cursor) :=
  setPhase_eq_moveTo (wrappedUp_frame s) .done

theorem absorbBody_eq (s : State) :
    absorbBody s = (s.nextDraw.setSponge (absorbBody s).sponge).moveTo (.rowInit0, s.cursor) := rfl

section Leaves

variable (herr : s.err = .none)
include herr

/-- A phase command whose body leaves the data of `u`, then PHASE and the cursors `n`. -/
theorem runCommand_moveTo {p : Phase} {body : State → State} (hp : s.phase = p) (hbody : body s = u.moveTo n) :
    runCommand (onlyIn p) (fun s => .ok (body s)) s = .next (u.moveTo n).complete := by
  rw [runCommand_phaseStep herr hp, hbody]

theorem mAbsorb_leaves (hp : s.phase = .absorbing) : ∃ u n, PhaseCommandLeaves .mAbsorb s u n :=
  ⟨s.nextDraw.setSponge (absorbBody s).sponge, (.rowInit0, s.cursor), {
    completes := runCommand_moveTo herr hp (absorbBody_eq s)
    frame := dataFrame_trans (dataFrame_nextDraw s) (dataFrame_setSponge _ _)
    writes := (WritesOnly.refl s).nextDraw.setSponge _
    mem := fun _ => rfl
    cursor := fun _ => rfl
    row1 := nofun
    wander := nofun }⟩

theorem mRow0_leaves (hp : s.phase = .rowInit0) : ∃ u n, PhaseCommandLeaves .mRow0 s u n :=
  ⟨s.columns row0Column, (.rowInit1, s.cursor), {
    completes := runCommand_moveTo herr hp (row0Body_eq s)
    frame := columns_frame row0Column_frame s
    writes := (row0Columns_writes s).mono fun _ hx => .inr ⟨0, .inl ⟨rfl, rfl⟩, hx⟩
    mem := nofun
    cursor := fun _ => rfl
    row1 := nofun
    wander := nofun }⟩

theorem mRow1_leaves (hp : s.phase = .rowInit1) : ∃ u n, PhaseCommandLeaves .mRow1 s u n :=
  ⟨s.columns row1Column, afterRow1 s.params s.cursor, {
    completes := runCommand_moveTo herr hp (row1Body_eq s)
    frame := columns_frame row1Column_frame s
    writes := (row1Columns_writes s).mono fun _ hx => .inr ⟨1, .inr (.inl ⟨rfl, rfl⟩), hx⟩
    mem := nofun
    cursor := nofun
    row1 := fun _ => afterRow1_keeps s.params s.cursor
    wander := nofun }⟩

theorem mSetupRow_leaves (hp : s.phase = .setup) : ∃ u n, PhaseCommandLeaves .mSetupRow s u n :=
  ⟨s.columns (setupColumn s.cursor.row.toNat s.cursor.prev.toNat s.cursor.rowa.toNat),
    afterSetupRow s.params s.phase s.cursor, {
    completes := runCommand_moveTo herr hp (setupRowBody_eq s)
    frame := columns_frame (setupColumn_frame _ _ _) s
    writes := (setupColumns_writes _ _ _ s).mono fun _ hx => .inr <| hx.elim
      (fun hx => ⟨_, .inr (.inr (.inl ⟨rfl, .inl rfl⟩)), hx⟩) fun hx => ⟨_, .inr (.inr (.inl ⟨rfl, .inr rfl⟩)), hx⟩
    mem := nofun
    cursor := nofun
    row1 := nofun
    wander := nofun }⟩

theorem mWanderRow_leaves (hp : s.phase = .wandering) : ∃ u n, PhaseCommandLeaves .mWanderRow s u n :=
  ⟨s.columns (wanderColumn s.cursor.row.toNat s.cursor.prev.toNat s.wanderRowa),
    afterWanderRow s.params s.phase s.wanderRowa s.cursor, {
    completes := runCommand_moveTo herr hp (wanderRowBody_eq s)
    frame := columns_frame (wanderColumn_frame _ _ _) s
    writes := (wanderColumns_writes _ _ _ s).mono fun _ hx => .inr <| hx.elim
      (fun hx => ⟨_, .inr (.inr (.inr ⟨rfl, .inl rfl⟩)), hx⟩) fun hx => ⟨_, .inr (.inr (.inr ⟨rfl, .inr rfl⟩)), hx⟩
    mem := nofun
    cursor := nofun
    row1 := nofun
    wander := fun _ => ⟨nextWanderCursor_window _ _ _ _, nextWanderCursor_gap _ _ _ _⟩ }⟩

theorem mWrapup_leaves (hp : s.phase = .wrapUp) : ∃ u n, PhaseCommandLeaves .mWrapup s u n :=
  ⟨s.wrappedUp, (.done, s.cursor), {
    completes := runCommand_moveTo herr hp (wrapupBody_eq s)
    frame := wrappedUp_frame s
    writes := (wrappedUp_writes s).mono fun _ hx => .inl ⟨rfl, hx⟩
    mem := nofun
    cursor := fun _ => rfl
    row1 := nofun
    wander := nofun }⟩

/-- R151 to R158: each phase command in its phase. -/
theorem phaseCommandLeaves (hi : i ∈ [Instr.mAbsorb, .mRow0, .mRow1, .mSetupRow, .mWanderRow, .mWrapup])
    (hp : s.phase ∈ legalPhases i) : ∃ u n, PhaseCommandLeaves i s u n := by
  simp only [List.mem_cons, List.not_mem_nil, or_false] at hi
  rcases hi with rfl | rfl | rfl | rfl | rfl | rfl <;> rw [legalPhases, List.mem_singleton] at hp
  · exact mAbsorb_leaves herr hp
  · exact mRow0_leaves herr hp
  · exact mRow1_leaves herr hp
  · exact mSetupRow_leaves herr hp
  · exact mWanderRow_leaves herr hp
  · exact mWrapup_leaves herr hp

end Leaves

/-- Settles O37: each command's columns write whole cells of its rows, and M_WRAPUP squeezes KLEN bytes. -/
theorem phaseCommandsCompleteWithFrame : Obligations.PhaseCommandsCompleteWithFrame := by
  intro i s hi herr hp
  obtain ⟨u, n, h⟩ := phaseCommandLeaves herr hi hp
  obtain ⟨S, m, d, rfl⟩ := h.frame
  refine ⟨S, m, n.1, n.2, d, h.completes, h.mem, h.cursor, h.row1, h.wander, fun x hout hrows => h.writes.frame x ?_⟩
  rintro (⟨hi, hlo, hhi⟩ | ⟨r, hr, hlo, hhi⟩)
  · have := hout hi
    omega
  · have := hrows r hr
    omega

end Sys2Proof.Machine
end

section
/-! PROOFS. The command words (30_encoding.md): a word decodes to a command exactly when its four fields are those of
the command (R86, R88, R89), hence exactly when it is the command's own word (R95). -/

namespace Sys2Proof

variable {v w : Word} {i : Instr} {opc n : Nat}

/-! ### The fields of a word (R86) -/

theorem fieldOPC_eq_mod (v : Word) : fieldOPC v = v.toNat % 2 ^ 8 := by
  simp [fieldOPC]

theorem fieldRSV0_eq_div_mod (v : Word) : fieldRSV0 v = v.toNat / 2 ^ 8 % 2 ^ 8 := by
  simp [fieldRSV0, Nat.shiftRight_eq_div_pow]

theorem fieldIMM16_eq_div_mod (v : Word) : fieldIMM16 v = v.toNat / 2 ^ 16 % 2 ^ 16 := by
  simp [fieldIMM16, Nat.shiftRight_eq_div_pow]

theorem fieldRSV1_eq_div (v : Word) : fieldRSV1 v = v.toNat / 2 ^ 32 := by
  have := v.isLt
  simp only [fieldRSV1, BitVec.extractLsb'_toNat, Nat.shiftRight_eq_div_pow]
  omega

theorem fieldOPC_lt (v : Word) : fieldOPC v < 2 ^ 8 := (v.extractLsb' 0 8).isLt

theorem fieldIMM16_lt (v : Word) : fieldIMM16 v < 2 ^ 16 := (v.extractLsb' 16 16).isLt

/-- R86: the four fields are the whole word. -/
theorem word_eq_iff_fields : v = w ↔
    fieldRSV1 v = fieldRSV1 w ∧ fieldRSV0 v = fieldRSV0 w ∧ fieldOPC v = fieldOPC w ∧ fieldIMM16 v = fieldIMM16 w := by
  constructor
  · rintro rfl
    exact ⟨rfl, rfl, rfl, rfl⟩
  · simp only [fieldOPC_eq_mod, fieldRSV0_eq_div_mod, fieldIMM16_eq_div_mod, fieldRSV1_eq_div]
    intro h
    apply BitVec.eq_of_toNat_eq
    omega

/-! ### The mask of SQUEEZE (R89) -/

theorem extractLsb'_and_mask {start len : Nat} {mask : Word} (h : mask.extractLsb' start len = BitVec.allOnes len) :
    (v &&& mask).extractLsb' start len = v.extractLsb' start len := by
  rw [BitVec.extractLsb'_and, h, BitVec.and_allOnes]

/-- SQUEEZE's mask clears IMM16 and keeps the three other fields. -/
theorem and_squeezeMask_eq_iff : v &&& 0xFFFFFFFF0000FFFF#64 = 0x16#64 ↔
    fieldRSV1 v = 0 ∧ fieldRSV0 v = 0 ∧ fieldOPC v = 0x16 := by
  have hrsv1 : fieldRSV1 (v &&& 0xFFFFFFFF0000FFFF#64) = fieldRSV1 v :=
    congrArg BitVec.toNat (extractLsb'_and_mask (by decide))
  have hrsv0 : fieldRSV0 (v &&& 0xFFFFFFFF0000FFFF#64) = fieldRSV0 v :=
    congrArg BitVec.toNat (extractLsb'_and_mask (by decide))
  have hopc : fieldOPC (v &&& 0xFFFFFFFF0000FFFF#64) = fieldOPC v :=
    congrArg BitVec.toNat (extractLsb'_and_mask (by decide))
  have himm : fieldIMM16 (v &&& 0xFFFFFFFF0000FFFF#64) = 0 := by
    rw [fieldIMM16, BitVec.extractLsb'_and, show BitVec.extractLsb' 16 16 0xFFFFFFFF0000FFFF#64 = 0#16 by decide,
      BitVec.and_zero, BitVec.toNat_zero]
  rw [word_eq_iff_fields, hrsv1, hrsv0, hopc, himm]
  exact and_congr_right fun _ => and_congr_right fun _ => and_iff_left (by decide)

/-! ### The opcode table (R87, R88) -/

theorem immediate_of_not_takesImmediate (h : i.takesImmediate = false) : i.immediate = 0 := by
  cases i with
  | squeeze n => cases h
  | _ => rfl

theorem lookupOpcode_opcode (i : Instr) : lookupOpcode i.opcode i.immediate = some i := by
  cases i <;> rfl

/-- The command found has the opcode, and takes the immediate where it takes one. -/
theorem opcode_of_lookupOpcode (h : lookupOpcode opc n = some i) :
    i.opcode = opc ∧ (i.takesImmediate = true → i.immediate = n) := by
  unfold lookupOpcode at h
  split at h <;> cases h <;> simp [Instr.opcode, Instr.takesImmediate, Instr.immediate]

/-- R88's reserved opcodes. -/
theorem lookupOpcode_eq_none_iff (hopc : opc < 2 ^ 8) : lookupOpcode opc n = none ↔
    (0x03 ≤ opc ∧ opc ≤ 0x0F) ∨ (0x17 ≤ opc ∧ opc ≤ 0x1F) ∨ (0x27 ≤ opc ∧ opc ≤ 0x2F) ∨ (0x32 ≤ opc ∧ opc ≤ 0xFF) := by
  unfold lookupOpcode
  split
  case h_20 =>
    simp only [imp_false] at *
    simp only [true_iff]
    omega
  all_goals simp

/-- Only SQUEEZE takes an immediate, and its opcode is 0x16. -/
theorem takesImmediate_eq_false_iff : i.takesImmediate = false ↔ i.opcode ≠ 0x16 := by
  cases i <;> simp [Instr.takesImmediate, Instr.opcode]

/-! ### Decoding (R89) and encoding (R95) -/

/-- R89: a word decodes to a command exactly when its fields are those of the command. -/
theorem decode_eq_ok_iff_fields : decode v = .ok i ↔
    fieldRSV1 v = 0 ∧ fieldRSV0 v = 0 ∧ fieldOPC v = i.opcode ∧ fieldIMM16 v = i.immediate := by
  constructor
  · intro h
    unfold decode at h
    split_ifs at h with hrsv1 hrsv0
    split at h
    · cases h
    next hlookup =>
      obtain ⟨hopc, himm⟩ := opcode_of_lookupOpcode hlookup
      split_ifs at h with hused
      cases h
      refine ⟨not_not.1 hrsv1, not_not.1 hrsv0, hopc.symm, ?_⟩
      cases htakes : i.takesImmediate with
      | true => exact (himm htakes).symm
      | false => rw [immediate_of_not_takesImmediate htakes, not_not.1 fun h => hused ⟨htakes, h⟩]
  · rintro ⟨hrsv1, hrsv0, hopc, himm⟩
    have hused : ¬(i.takesImmediate = false ∧ i.immediate ≠ 0) := fun h =>
      h.2 (immediate_of_not_takesImmediate h.1)
    simp [decode, hrsv1, hrsv0, hopc, himm, lookupOpcode_opcode, hused]

theorem wellFormed_iff : i.wellFormed = true ↔ i.immediate < 2 ^ 16 := by
  cases i with
  | squeeze n => simp [Instr.wellFormed, Instr.immediate, Nat.lt_succ_iff]
  | _ => simp [Instr.wellFormed, Instr.immediate]

open Laws.Encoding in
/-- R95: the fields of every well-formed command's word, by each command's own law. -/
theorem fields_encode : ∀ i : Instr, Statement i
  | .nop => nop
  | .clrerr => clrerr
  | .srst => srst
  | .init => init
  | .perm => perm
  | .permR => permR
  | .absorb => absorb
  | .duplex => duplex
  | .duplexR => duplexR
  | .squeeze n => squeeze n
  | .mStart => mStart
  | .mAbsorb => mAbsorb
  | .mRow0 => mRow0
  | .mRow1 => mRow1
  | .mSetupRow => mSetupRow
  | .mWanderRow => mWanderRow
  | .mWrapup => mWrapup
  | .derive => derive
  | .deriveFixed => deriveFixed

/-- A word decodes to a command exactly when the command is well-formed and the word is its own. -/
theorem decode_eq_ok_iff_encode : decode v = .ok i ↔ i.wellFormed = true ∧ v = encode i := by
  rw [decode_eq_ok_iff_fields]
  constructor
  · rintro ⟨hrsv1, hrsv0, hopc, himm⟩
    have hwf : i.wellFormed = true := wellFormed_iff.2 (himm ▸ fieldIMM16_lt v)
    obtain ⟨hrsv0', hrsv1', hopc', himm'⟩ := fields_encode i hwf
    exact ⟨hwf, word_eq_iff_fields.2
      ⟨hrsv1.trans hrsv1'.symm, hrsv0.trans hrsv0'.symm, hopc.trans hopc'.symm, himm.trans himm'.symm⟩⟩
  · rintro ⟨hwf, rfl⟩
    obtain ⟨hrsv0, hrsv1, hopc, himm⟩ := fields_encode i hwf
    exact ⟨hrsv1, hrsv0, hopc, himm⟩

theorem decode_encode (h : i.wellFormed = true) : decode (encode i) = .ok i :=
  decode_eq_ok_iff_encode.2 ⟨h, rfl⟩

theorem decodeOption_encode (h : i.wellFormed = true) : decodeOption (encode i) = some i := by
  simp [decodeOption, decode_encode h]

/-- R90: what makes a word illegal, field by field. -/
theorem decodeOption_eq_none_iff : decodeOption v = none ↔
    lookupOpcode (fieldOPC v) (fieldIMM16 v) = none ∨ fieldRSV0 v ≠ 0 ∨ fieldRSV1 v ≠ 0 ∨
      (fieldIMM16 v ≠ 0 ∧ fieldOPC v ≠ 0x16) := by
  unfold decodeOption decode
  split_ifs with hrsv1 hrsv0
  · simp [hrsv1]
  · simp [hrsv0]
  cases hlookup : lookupOpcode (fieldOPC v) (fieldIMM16 v) with
  | none => simp
  | some i =>
    have hused : (i.takesImmediate = false ∧ fieldIMM16 v ≠ 0) ↔ (fieldIMM16 v ≠ 0 ∧ fieldOPC v ≠ 0x16) := by
      rw [takesImmediate_eq_false_iff, (opcode_of_lookupOpcode hlookup).1, and_comm]
    simp only [hused, hrsv1, hrsv0, reduceCtorEq, false_or]
    split_ifs with h <;> simp [h]

/-- Settles O1: the word of a well-formed command is one that decodes to it. -/
theorem decodeOfEncode : Obligations.DecodeOfEncode :=
  fun _ => decode_encode

/-- Settles O2: the fields a word decodes by are those of the command's own word. -/
theorem encodeOfDecode : Obligations.EncodeOfDecode := by
  intro v i h
  obtain ⟨hwf, hv⟩ := decode_eq_ok_iff_encode.1 h
  exact ⟨hv.symm, hwf⟩

/-- Settles O3: SQUEEZE's mask leaves out IMM16 alone; every other command has one word, its own. -/
theorem decodeMatchesMasks : Obligations.DecodeMatchesMasks := by
  refine fun v => ⟨fun n => ?_, fun p hp => ?_⟩
  · rw [decode_eq_ok_iff_fields, and_squeezeMask_eq_iff, fieldIMM16_eq_div_mod, BitVec.toNat_ushiftRight,
      Nat.shiftRight_eq_div_pow, and_assoc, and_assoc]
    exact and_congr_right fun _ => and_congr_right fun _ => and_congr_right fun _ => eq_comm
  · have hword : p.1.wellFormed = true ∧ encode p.1 = p.2 := by
      revert p
      decide
    rw [decode_eq_ok_iff_encode, hword.2, and_iff_right hword.1]

/-- Settles O4: the opcode table's gaps are the reserved opcodes, and an immediate is SQUEEZE's alone. -/
theorem illegalEncodings : Obligations.IllegalEncodings := by
  intro v
  simp only [← fieldOPC_eq_mod, ← fieldRSV0_eq_div_mod, ← fieldIMM16_eq_div_mod, ← fieldRSV1_eq_div]
  rw [decodeOption_eq_none_iff, lookupOpcode_eq_none_iff (fieldOPC_lt v)]
  simp only [or_assoc]

/-- Settles O5: each word is that of its command. -/
theorem decodeSampleWords : Obligations.DecodeSampleWords :=
  ⟨decodeOption_encode (i := .srst) rfl, decodeOption_encode (i := .permR) rfl,
    decodeOption_encode (i := .squeeze 32) rfl, decodeOption_encode (i := .mWanderRow) rfl,
    decodeOption_encode (i := .derive) rfl, rfl, rfl⟩

end Sys2Proof
end

section
/-! PROOFS. The Permutation Core (40_permutation.md): each step of G is invertible and each G touches its own four words
only, so a round is a bijection and G's on disjoint words commute (R102, R105). -/

namespace Sys2Proof.Machine

variable {rot : Rot} {S T : Sponge} {i j k l : Fin 16} {n r r' : Nat}

/-! ### Rotation (R9) -/

theorem rotr_eq_rotateRight (h : legalRotation n) (x : Word) : rotr x n = x.rotateRight n := by
  rw [BitVec.rotateRight_def, Nat.mod_eq_of_lt (by omega)]
  rfl

/-- A rotation loses no bit: bit `i` goes to place `i - n`, around the word's end. -/
theorem rotr_injective (h : legalRotation n) : Function.Injective (rotr · n) := by
  intro x y hxy
  simp only [rotr_eq_rotateRight h] at hxy
  refine BitVec.eq_of_getLsbD_eq fun i hi => ?_
  have hbit := congrArg (·.getLsbD ((i + (64 - n)) % 64)) hxy
  simp only [BitVec.getLsbD_rotateRight, Nat.mod_eq_of_lt (show n < 64 by omega)] at hbit
  rcases Nat.lt_or_ge i n with hin | hin
  · have hplace : (i + (64 - n)) % 64 = i + (64 - n) := Nat.mod_eq_of_lt (by omega)
    simpa [hplace, show i + (64 - n) < 64 by omega] using hbit
  · have hplace : (i + (64 - n)) % 64 = i - n := by omega
    simpa [hplace, show i - n < 64 - n by omega, show n + (i - n) = i by omega] using hbit

@[simp] theorem rotr_zero (n : Nat) : rotr 0#64 n = 0#64 := by
  simp [rotr]

/-! ### The mixing function G (R101) -/

/-- The first four steps of G with their two rotation amounts; the last four are the same steps (R101). -/
def mixHalf (r r' : Nat) (q : Word × Word × Word × Word) : Word × Word × Word × Word :=
  let a := q.1 + q.2.1
  let d := rotr (q.2.2.2 ^^^ a) r
  let c := q.2.2.1 + d
  let b := rotr (q.2.1 ^^^ c) r'
  (a, b, c, d)

theorem mixG_eq_mixHalf (rot : Rot) (a b c d : Word) :
    mixG rot a b c d = mixHalf rot.r2 rot.r3 (mixHalf rot.r0 rot.r1 (a, b, c, d)) := rfl

/-- The steps are undone from the last to the first: each changes one word by a word that is still there. -/
theorem mixHalf_injective (h : legalRotation r) (h' : legalRotation r') : Function.Injective (mixHalf r r') := by
  rintro ⟨a, b, c, d⟩ ⟨a', b', c', d'⟩ heq
  simp only [mixHalf, Prod.mk.injEq] at heq
  obtain ⟨ha, hb, hc, hd⟩ := heq
  obtain rfl : c = c' := by rwa [hd, BitVec.add_left_inj] at hc
  obtain rfl : b = b' := by rwa [hd, (rotr_injective h').eq_iff, BitVec.xor_left_inj] at hb
  obtain rfl : a = a' := by rwa [BitVec.add_left_inj] at ha
  obtain rfl : d = d' := by rwa [(rotr_injective h).eq_iff, BitVec.xor_left_inj] at hd
  rfl

theorem mixG_zero (rot : Rot) : mixG rot 0#64 0#64 0#64 0#64 = (0#64, 0#64, 0#64, 0#64) := by
  simp [mixG]

/-! ### G on four words of the state (R102) -/

theorem sponge_ext (h : ∀ x : Fin 16, S[x] = T[x]) : S = T :=
  Vector.ext fun n hn => h ⟨n, hn⟩

/-- Each word after G; of equal indices the last one written wins. -/
theorem mixAt_getElem (rot : Rot) (S : Sponge) (i j k l x : Fin 16) :
    (mixAt rot S i j k l)[x] =
      if l = x then (mixG rot S[i] S[j] S[k] S[l]).2.2.2
      else if k = x then (mixG rot S[i] S[j] S[k] S[l]).2.2.1
      else if j = x then (mixG rot S[i] S[j] S[k] S[l]).2.1
      else if i = x then (mixG rot S[i] S[j] S[k] S[l]).1
      else S[x] := by
  simp only [mixAt, Fin.getElem_fin, Vector.getElem_set, Fin.ext_iff]

theorem mixAt_getElem_of_notMem {x : Fin 16} (hx : x ∉ [i, j, k, l]) : (mixAt rot S i j k l)[x] = S[x] := by
  simp only [List.mem_cons, List.not_mem_nil, or_false, not_or] at hx
  obtain ⟨hi, hj, hk, hl⟩ := hx
  rw [mixAt_getElem, if_neg (Ne.symm hl), if_neg (Ne.symm hk), if_neg (Ne.symm hj), if_neg (Ne.symm hi)]

/-- What a word becomes depends on it and the four words alone. -/
theorem mixAt_getElem_congr {x : Fin 16} (hx : S[x] = T[x]) (h : ∀ y ∈ [i, j, k, l], S[y] = T[y]) :
    (mixAt rot S i j k l)[x] = (mixAt rot T i j k l)[x] := by
  rw [mixAt_getElem, mixAt_getElem, h i (by simp), h j (by simp), h k (by simp), h l (by simp), hx]

theorem mixAt_getElem_quadruple (h : [i, j, k, l].Nodup) :
    ((mixAt rot S i j k l)[i], (mixAt rot S i j k l)[j], (mixAt rot S i j k l)[k], (mixAt rot S i j k l)[l]) =
      mixG rot S[i] S[j] S[k] S[l] := by
  simp only [List.nodup_cons, List.mem_cons, List.not_mem_nil, or_false, not_or] at h
  obtain ⟨⟨hij, hik, hil⟩, ⟨hjk, hjl⟩, hkl, -⟩ := h
  simp only [mixAt_getElem, Ne.symm hij, Ne.symm hik, Ne.symm hil, Ne.symm hjk, Ne.symm hjl, Ne.symm hkl, if_true,
    if_false]

theorem mixAt_zero (rot : Rot) (i j k l : Fin 16) :
    mixAt rot (Vector.replicate 16 0) i j k l = Vector.replicate 16 0 := by
  simp [mixAt, mixG_zero]

/-- A word outside the first quadruple is left by it, and so are the words the second one reads. -/
theorem mixAt_mixAt_getElem {i' j' k' l' x : Fin 16} (hdisj : ∀ y ∈ [i', j', k', l'], y ∉ [i, j, k, l])
    (hx : x ∉ [i, j, k, l]) :
    (mixAt rot (mixAt rot S i j k l) i' j' k' l')[x] = (mixAt rot (mixAt rot S i' j' k' l') i j k l)[x] := by
  rw [mixAt_getElem_of_notMem (S := mixAt rot S i' j' k' l') hx]
  exact mixAt_getElem_congr (mixAt_getElem_of_notMem hx) fun y hy => mixAt_getElem_of_notMem (hdisj y hy)

/-- Settles O17: every word stands outside one of the two quadruples. -/
theorem disjointMixingCommutes : Obligations.DisjointMixingCommutes := by
  intro rot S i j k l i' j' k' l' _ _ hdisj
  refine sponge_ext fun x => ?_
  by_cases hx : x ∈ [i, j, k, l]
  · exact (mixAt_mixAt_getElem hdisj (hdisj x hx)).symm
  · exact mixAt_mixAt_getElem (fun y hy' hy => hdisj y hy hy') hx

/-! ### Rounds (R102 to R104) -/

theorem rounds_eq_iterate (rot : Rot) (n : Nat) : rounds rot n = (rnd rot)^[n] := by
  induction n with
  | zero => rfl
  | succ n ih => rw [Function.iterate_succ, ← ih]; rfl

theorem p12_eq_iterate (rot : Rot) : p12 rot = (p1 rot)^[12] := rounds_eq_iterate rot 12

theorem p1_zero (rot : Rot) : p1 rot (Vector.replicate 16 0) = Vector.replicate 16 0 := by
  simp only [p1, rnd, mixColumns, mixDiagonals, mixAt_zero]

theorem p12_zero (rot : Rot) : p12 rot (Vector.replicate 16 0) = Vector.replicate 16 0 := by
  rw [p12_eq_iterate, Function.iterate_fixed (p1_zero rot)]

/-! ### Rounds are bijections (R105) -/

theorem finite_sponge : Finite Sponge :=
  Finite.of_injective (fun (S : Sponge) (x : Fin 16) => S[x].toFin) fun _ _ h =>
    sponge_ext fun x => BitVec.eq_of_toFin_eq (congrFun h x)

/-- R7: the four amounts of the configuration are ones `rotr` is defined for. -/
structure LegalRot (rot : Rot) : Prop where
  r0 : legalRotation rot.r0
  r1 : legalRotation rot.r1
  r2 : legalRotation rot.r2
  r3 : legalRotation rot.r3

theorem mixG_injective (hrot : LegalRot rot) {a b c d a' b' c' d' : Word}
    (h : mixG rot a b c d = mixG rot a' b' c' d') : (a, b, c, d) = (a', b', c', d') := by
  rw [mixG_eq_mixHalf, mixG_eq_mixHalf] at h
  exact mixHalf_injective hrot.r0 hrot.r1 (mixHalf_injective hrot.r2 hrot.r3 h)

theorem mixAt_injective (hrot : LegalRot rot) (h : [i, j, k, l].Nodup) :
    Function.Injective fun S => mixAt rot S i j k l := by
  intro S T heq
  beta_reduce at heq
  have hwords : (S[i], S[j], S[k], S[l]) = (T[i], T[j], T[k], T[l]) := mixG_injective hrot <| by
    rw [← mixAt_getElem_quadruple h, heq, mixAt_getElem_quadruple h]
  simp only [Prod.mk.injEq] at hwords
  obtain ⟨hi, hj, hk, hl⟩ := hwords
  refine sponge_ext fun x => ?_
  by_cases hx : x ∈ [i, j, k, l]
  · simp only [List.mem_cons, List.not_mem_nil, or_false] at hx
    rcases hx with rfl | rfl | rfl | rfl <;> assumption
  · rw [← mixAt_getElem_of_notMem (rot := rot) hx, heq, mixAt_getElem_of_notMem hx]

theorem mixColumns_injective (hrot : LegalRot rot) : Function.Injective (mixColumns rot) :=
  (mixAt_injective hrot (by decide)).comp <| (mixAt_injective hrot (by decide)).comp <|
    (mixAt_injective hrot (by decide)).comp <| mixAt_injective hrot (by decide)

theorem mixDiagonals_injective (hrot : LegalRot rot) : Function.Injective (mixDiagonals rot) :=
  (mixAt_injective hrot (by decide)).comp <| (mixAt_injective hrot (by decide)).comp <|
    (mixAt_injective hrot (by decide)).comp <| mixAt_injective hrot (by decide)

/-- R105: a round is injective on a finite set of states, hence a bijection. -/
theorem rnd_bijective (hrot : LegalRot rot) : Function.Bijective (rnd rot) :=
  have := finite_sponge
  Finite.injective_iff_bijective.1 ((mixDiagonals_injective hrot).comp (mixColumns_injective hrot))

/-- Settles O16: P12 is an iterate of the round, so it keeps what the round keeps and is a bijection with it. -/
theorem permutationProperties : Obligations.PermutationProperties := by
  refine fun rot => ⟨congrFun (p12_eq_iterate rot), ⟨p1_zero rot, p12_zero rot⟩, fun h0 h1 h2 h3 => ?_⟩
  have hrnd : Function.Bijective (rnd rot) := rnd_bijective ⟨h0, h1, h2, h3⟩
  exact ⟨hrnd, hrnd, p12_eq_iterate rot ▸ hrnd.iterate 12⟩

/-! ### The commands (R106, R107) -/

/-- R106, R107: a command that replaces S by a permutation of it, in IDLE and DONE. -/
theorem runCommand_setSponge {s : State} (f : State → Sponge) (herr : s.err = .none)
    (hphase : s.phase = .idle ∨ s.phase = .done) :
    runCommand idleOrDone (fun s => .ok (s.setSponge (f s))) s =
      .next { s with sponge := f s, busy := false, engineDelay := 0 } :=
  runCommand_ok (t := s.setSponge (f s)) herr ((idleOrDone_iff _).2 hphase) rfl

/-- Settles O18: neither command checks more than the phase. -/
theorem permutationCommands : Obligations.PermutationCommands := fun _ herr hphase =>
  ⟨runCommand_setSponge (fun s => p12 s.cfg.rot s.sponge) herr hphase,
    runCommand_setSponge (fun s => p1 s.cfg.rot s.sponge) herr hphase⟩

end Sys2Proof.Machine
end

section
/-! PROOFS. The Sponge Engine (41_sponge.md): the bytes of a squeeze (R121, R123), the commands INIT, ABSORB, DUPLEX and
DUPLEX_R (R117 to R120), and M_WRAPUP, which squeezes to OUT (R158). -/

namespace Sys2Proof.Machine

variable {rot : Rot} {S : Sponge} {s : State}

/-! ### The bytes of a squeeze (R123) -/

/-- R121: whole blocks are the rates of S, P12(S), P12²(S), … -/
theorem squeezeBlocks_eq (rot : Rot) (q : Nat) (S : Sponge) :
    squeezeBlocks rot q S =
      ((p12 rot)^[q] S, (List.range q).flatMap fun j => blockBytes (rate ((p12 rot)^[j] S))) := by
  induction q generalizing S with
  | zero => rfl
  | succ q ih =>
    simp only [squeezeBlocks, ih, List.range_succ_eq_map, List.flatMap_cons, List.flatMap_map,
      Function.iterate_succ_apply, Function.iterate_zero_apply]

/-- R121: one whole block more is the rate after those before it. -/
theorem squeezeBlocks_succ_bytes (rot : Rot) (q : Nat) (S : Sponge) :
    (squeezeBlocks rot (q + 1) S).2 = (squeezeBlocks rot q S).2 ++ blockBytes (rate ((p12 rot)^[q] S)) := by
  simp only [squeezeBlocks_eq, List.range_succ, List.flatMap_append, List.flatMap_singleton]

/-- R121: a squeeze is its whole blocks and then the first bytes of the next. -/
theorem squeeze_eq {q r : Nat} (hr : r < 96) :
    squeeze rot S (96 * q + r) =
      ((p12 rot)^[q] S, (squeezeBlocks rot q S).2 ++ (blockBytes (rate ((p12 rot)^[q] S))).take r) := by
  have hdiv : (96 * q + r) / 96 = q := by omega
  have hmod : (96 * q + r) % 96 = r := by omega
  simp only [squeeze, hdiv, hmod, squeezeBlocks_eq]

/-- The bytes of a squeeze do not depend on whether a last full block counts as whole. -/
theorem squeeze_bytes {q r : Nat} (hr : r ≤ 96) :
    (squeeze rot S (96 * q + r)).2 =
      (squeezeBlocks rot q S).2 ++ (blockBytes (rate ((p12 rot)^[q] S))).take r := by
  rcases Nat.lt_or_eq_of_le hr with hlt | rfl
  · rw [squeeze_eq hlt]
  · have hnext : 96 * q + 96 = 96 * (q + 1) + 0 := by omega
    rw [hnext, squeeze_eq (by decide), squeezeBlocks_succ_bytes, List.take_zero, List.append_nil,
      List.take_of_length_le (by rw [blockBytes_length])]

/-- R123: a longer squeeze begins with the shorter one. -/
theorem squeeze_prefix_succ (rot : Rot) (S : Sponge) (n : Nat) :
    (squeeze rot S n).2 <+: (squeeze rot S (n + 1)).2 := by
  have hr : n % 96 < 96 := Nat.mod_lt n (by decide)
  rw [← Nat.div_add_mod n 96, Nat.add_assoc, squeeze_bytes hr.le, squeeze_bytes hr, List.prefix_append_right_inj]
  exact List.take_prefix_take_left (Nat.le_succ _)

/-- Settles O21: a squeeze is blocks of rate bytes, each after one P12 more. -/
theorem squeezeComposition : Obligations.SqueezeComposition := by
  refine fun rot S => ⟨fun q r hr => ?_, fun n => ?_⟩
  · rw [squeeze_eq hr, squeezeBlocks_eq]
  · have hprefix := List.prefix_iff_eq_take.1 (squeeze_prefix_succ rot S n)
    rw [squeeze_length] at hprefix
    exact hprefix.symm

/-! ### The sponge commands (R117 to R120) -/

/-- R119, R120: a command that duplexes, in IDLE and DONE. -/
theorem runCommand_afterDuplex (r : State → Sponge × Block) (herr : s.err = .none)
    (hphase : s.phase = .idle ∨ s.phase = .done) :
    runCommand idleOrDone (fun s => .ok (s.afterDuplex (r s))) s =
      .next { s with sponge := (r s).1, blkOut := (r s).2, busy := false, engineDelay := 0 } :=
  runCommand_ok (t := s.afterDuplex (r s)) herr ((idleOrDone_iff _).2 hphase) rfl

/-- Settles O20: none of the four checks more than the phase. -/
theorem spongeCommands : Obligations.SpongeCommands := fun _ herr hphase =>
  ⟨runCommand_setSponge (fun s => initState s.cfg) herr hphase,
    runCommand_setSponge (fun s => absorbBlock s.cfg.rot s.sponge s.blkIn) herr hphase,
    runCommand_afterDuplex (fun s => duplexFull s.cfg.rot s.sponge s.blkIn) herr hphase,
    runCommand_afterDuplex (fun s => duplexRed s.cfg.rot s.sponge s.blkIn) herr hphase⟩

/-! ### M_WRAPUP (R158) -/

theorem duplexFull_fst (rot : Rot) (S : Sponge) (b : Block) : (duplexFull rot S b).1 = p12 rot (xorRate S b) := rfl

/-- R121, R158: squeezing to OUT, `q` being what the squeeze gives. -/
theorem squeezeToOut_eq {n : Nat} {q : Sponge × List Byte} (hq : squeeze s.cfg.rot s.sponge n = q) :
    s.squeezeToOut n = { s with sponge := q.1, mem := Memory.store s.mem outBase q.2 } := by
  subst hq
  rfl

/-- R158: M_WRAPUP when the cell it reads holds the written block `b`. -/
theorem exec_mWrapup_of_cellHolds {b : Block} {q : Sponge × List Byte} (herr : s.err = .none) (hp : s.phase = .wrapUp)
    (hb : s.cellHolds s.cursor.rowa.toNat 0 b)
    (hq : squeeze s.cfg.rot (p12 s.cfg.rot (xorRate s.sponge b)) s.params.klen.toNat = q) :
    exec .mWrapup s = .next { s with
      sponge := q.1
      mem := Memory.store s.mem outBase q.2
      phase := .done
      draws := s.draws + 1
      busy := false
      engineDelay := 0 } := by
  have hdata : s.wrappedUp =
      { s with sponge := q.1, mem := Memory.store s.mem outBase q.2, draws := s.draws + 1 } := by
    rw [State.wrappedUp, readCell_of_cellHolds hb, duplexFull_fst]
    -- any state in its place, or the elaborator unfolds the twelve rounds
    generalize p12 s.cfg.rot (xorRate s.sponge b) = T at hq ⊢
    exact squeezeToOut_eq hq
  refine (runCommand_moveTo herr hp (wrapupBody_eq s)).trans ?_
  rw [hdata]
  rfl

/-- Settles O36: the squeezed bytes are one store of KLEN bytes at OUT[0]. -/
theorem mWrapupCommand : Obligations.MWrapupCommand := by
  intro s b herr hp hb n q
  have hlen : q.2.length = n := squeeze_length _ _ n
  refine ⟨Memory.store s.mem outBase q.2, s.draws + 1, exec_mWrapup_of_cellHolds herr hp hb rfl,
    fun j hj => ?_, fun x hx => ?_⟩
  · exact byteAt_store_inside _ _ _ (by omega)
  · exact byteAt_store_outside _ _ _ (by omega)

end Sys2Proof.Machine
end

section
/-! PROOFS. The errors each command raises (R206): no others in any state, and each of them in some state. -/

namespace Sys2Proof.Machine

variable {i j : Instr} {s t : State} {code : ErrCode} {errs : List ErrCode} {legal : Phase → Bool}
  {body : State → Except ErrCode State} {f : State → State}

/-! ### What a body's checks raise -/

/-- R140, R210: a failing validation gives PARAM or ALLOC. -/
theorem validate_eq_some {cfg : Config} {q : Params} (h : validate cfg q = some code) :
    code ∈ [ErrCode.param, .alloc] := by
  unfold validate at h
  split_ifs at h <;> simp_all

/-- R150: M_START's body fails where validation does. -/
theorem validatedStart_eq_error_iff : validatedStart s = .error code ↔ validate s.cfg s.params = some code := by
  unfold validatedStart
  split <;> simp_all

/-- R180: so does DERIVE's. -/
theorem deriveBody_eq_error_iff : deriveBody s = .error code ↔ validate s.cfg s.params = some code := by
  unfold deriveBody
  split <;> simp_all

/-- R122: SQUEEZE's body fails with PARAM alone. -/
theorem squeezeBody_error {n : Nat} (h : squeezeBody n s = .error code) : code = .param := by
  unfold squeezeBody at h
  split at h <;> cases h
  rfl

theorem phaseFrame_err (h : phaseFrame s t) : t.err = s.err := by
  obtain ⟨S, m, d, p, k, rfl⟩ := h
  rfl

theorem afterDuplex_err (s : State) (r : Sponge × Block) : (s.afterDuplex r).err = s.err := rfl

/-! ### No command raises another error -/

/-- R208, R212: a command raises PHASE outside its phases and what its body's checks raise in them. -/
theorem runCommand_err (h : runCommand legal body s = .next t) (herr : s.err = .none)
    (hphase : legal s.phase = false → .phase ∈ errs) (hok : ∀ u, body s = .ok u → u.err = s.err)
    (herror : ∀ code, body s = .error code → code ∈ errs) : t.err = .none ∨ t.err ∈ errs := by
  rcases runCommand_cases legal body s with ⟨hne, -⟩ | ⟨-, hp, h'⟩ | ⟨-, -, u, hu, h'⟩ | ⟨-, -, code, hcode, h'⟩
  · exact absurd herr hne
  all_goals
    rw [h'] at h
    cases h
  · exact .inr (hphase hp)
  · exact .inl ((hok u hu).trans herr)
  · exact .inr (herror code hcode)

/-- A command whose body raises no error. -/
theorem runCommand_total_err (h : runCommand legal (fun s => .ok (f s)) s = .next t) (herr : s.err = .none)
    (hf : (f s).err = s.err) : t.err = .none ∨ t.err ∈ [ErrCode.phase] :=
  runCommand_err h herr (fun _ => List.mem_singleton_self _) (fun u hu => by cases hu; exact hf) nofun

/-- R206: the errors of its row are all a command raises, DERIVE_FIXED's row by R7's bounds. -/
theorem exec_err (hlegal : s.cfg.Legal) (herr : s.err = .none) (h : exec i s = .next t) :
    t.err = .none ∨ t.err ∈ possibleErrors i := by
  unfold exec at h
  cases i with
  | nop =>
    cases h.symm.trans (exec_nop s)
    exact .inl herr
  | clrerr | srst =>
    cases h
    exact .inl rfl
  | init | perm | permR | absorb => exact runCommand_total_err h herr (State.setSponge_err s _)
  | duplex | duplexR => exact runCommand_total_err h herr (afterDuplex_err s _)
  | squeeze n =>
    refine runCommand_err h herr (fun _ => List.mem_cons_self) (fun u hu => ?_) fun code hcode => ?_
    · obtain ⟨-, rfl⟩ := squeezeBody_ok hu
      rfl
    · rw [squeezeBody_error hcode]
      exact List.mem_cons_of_mem _ (List.mem_singleton_self _)
  | mStart =>
    refine runCommand_err h herr nofun (fun u hu => ?_) fun code hcode =>
      validate_eq_some (validatedStart_eq_error_iff.1 hcode)
    obtain ⟨-, rfl⟩ := validatedStart_ok hu
    rfl
  | mAbsorb => exact runCommand_total_err h herr (phaseFrame_err (absorbBody_frame s))
  | mRow0 => exact runCommand_total_err h herr (phaseFrame_err (row0Body_frame s))
  | mRow1 => exact runCommand_total_err h herr (phaseFrame_err (row1Body_frame s))
  | mSetupRow => exact runCommand_total_err h herr (phaseFrame_err (setupRowBody_frame s))
  | mWanderRow => exact runCommand_total_err h herr (phaseFrame_err (wanderRowBody_frame s))
  | mWrapup => exact runCommand_total_err h herr (phaseFrame_err (wrapupBody_frame s))
  | derive =>
    refine runCommand_err h herr nofun (fun u hu => ?_) fun code hcode =>
      validate_eq_some (deriveBody_eq_error_iff.1 hcode)
    obtain ⟨-, rfl⟩ := deriveBody_ok hu
    exact phaseFrame_err (deriveRun_frame s)
  | deriveFixed =>
    refine runCommand_err h herr nofun (fun u hu => ?_) fun code hcode => ?_
    · obtain ⟨-, rfl⟩ := deriveBody_ok (s := s.setParams (fixedParams s.cfg)) hu
      exact (phaseFrame_err (deriveRun_frame _)).trans (State.setParams_err s _)
    · have hv := (deriveBody_eq_error_iff (s := s.setParams (fixedParams s.cfg))).1 hcode
      exact absurd ((validate_fixedParams hlegal).symm.trans hv) nofun

/-! ### Each allowed error is raised -/

/-- R206: some well-formed command of `i`'s opcode ends in error `e` from some state without one, on a legal
configuration. -/
def CanRaise (i : Instr) (e : ErrCode) : Prop :=
  ∃ (j : Instr) (s t : State), j.opcode = i.opcode ∧ j.wellFormed = true ∧ s.cfg.Legal ∧ s.err = .none ∧
    exec j s = .next t ∧ t.err = e

/-- An error entry on the configuration of State.reset. -/
theorem canRaise_of_exec (hop : j.opcode = i.opcode) (hwf : j.wellFormed = true) (hcfg : s.cfg = Config.default)
    (herr : s.err = .none) (h : exec j s = .next (s.raise code).complete) : CanRaise i code :=
  ⟨j, s, _, hop, hwf, hcfg ▸ by decide, herr, h, rfl⟩

/-- R208: a command outside its phases. -/
theorem exec_of_illegal_phase (herr : s.err = .none) (hp : s.phase ∉ legalPhases i) :
    exec i s = .next (s.raise .phase).complete := by
  unfold exec
  cases i with
  | nop | clrerr | srst | mStart | derive | deriveFixed => cases hphase : s.phase <;> simp [hphase, legalPhases] at hp
  | init | perm | permR | absorb | duplex | duplexR | squeeze n =>
    exact runCommand_phase herr (by simpa [idleOrDone, legalPhases] using hp)
  | mAbsorb | mRow0 | mRow1 | mSetupRow | mWanderRow | mWrapup =>
    exact runCommand_phase herr (by simpa [onlyIn, legalPhases] using hp)

theorem canRaise_phase {p : Phase} (hop : j.opcode = i.opcode) (hwf : j.wellFormed = true) (hp : p ∉ legalPhases j) :
    CanRaise i .phase :=
  canRaise_of_exec (s := State.reset.setPhase p) hop hwf rfl rfl (exec_of_illegal_phase rfl hp)

/-- R150: M_START with parameters that do not validate. -/
theorem exec_mStart_of_invalid (herr : s.err = .none) (hv : validate s.cfg s.params = some code) :
    exec .mStart s = .next (s.raise code).complete :=
  runCommand_error herr rfl (validatedStart_eq_error_iff.2 hv)

/-- R180: DERIVE with parameters that do not validate. -/
theorem exec_derive_of_invalid (herr : s.err = .none) (hv : validate s.cfg s.params = some code) :
    exec .derive s = .next (s.raise code).complete :=
  runCommand_error herr rfl (deriveBody_eq_error_iff.2 hv)

/-- Parameters that need 86 · 12 words of MAT, of which Config.default has 1024 (R140). -/
def largeMatrix : Params := ⟨32, 8, 8, 1, 86, 1⟩

theorem validate_largeMatrix : validate Config.default largeMatrix = some .alloc := by decide

/-- R140: each error of M_START's and DERIVE's row comes from some parameters. -/
theorem exists_validate_eq_some (h : code ∈ [ErrCode.param, .alloc]) : ∃ q, validate Config.default q = some code := by
  simp only [List.mem_cons, List.not_mem_nil, or_false] at h
  rcases h with rfl | rfl
  · exact ⟨State.reset.params, by decide⟩
  · exact ⟨largeMatrix, validate_largeMatrix⟩

/-- Right after reset SQUEEZE 257 raises PARAM, OUT having 256 bytes (R122), every phase step raises PHASE, and so does
every sponge primitive once PHASE is not IDLE (R208). -/
theorem canRaise_of_mem (h : code ∈ possibleErrors i) : CanRaise i code := by
  cases i with
  | nop | clrerr | srst | deriveFixed => exact absurd h List.not_mem_nil
  | init | perm | permR | absorb | duplex | duplexR =>
    obtain rfl := List.mem_singleton.1 h
    exact canRaise_phase (p := .setup) rfl rfl (by decide)
  | squeeze n =>
    simp only [possibleErrors, List.mem_cons, List.not_mem_nil, or_false] at h
    rcases h with rfl | rfl
    · exact canRaise_phase (j := .squeeze 0) (p := .setup) rfl rfl (by decide)
    · exact canRaise_of_exec (j := .squeeze 257) (s := State.reset) rfl rfl rfl rfl
        (exec_squeeze_of_exceeds rfl (.inl rfl) (by decide))
  | mStart =>
    obtain ⟨q, hq⟩ := exists_validate_eq_some h
    exact canRaise_of_exec (s := State.reset.setParams q) rfl rfl rfl rfl (exec_mStart_of_invalid rfl hq)
  | derive =>
    obtain ⟨q, hq⟩ := exists_validate_eq_some h
    exact canRaise_of_exec (s := State.reset.setParams q) rfl rfl rfl rfl (exec_derive_of_invalid rfl hq)
  | mAbsorb | mRow0 | mRow1 | mSetupRow | mWanderRow | mWrapup =>
    obtain rfl := List.mem_singleton.1 h
    exact canRaise_phase (p := .idle) rfl rfl (by decide)

/-- Settles O11, in both directions. -/
theorem errorsByCommand : Obligations.ErrorsByCommand :=
  ⟨fun _ _ _ => exec_err, fun _ _ => canRaise_of_mem⟩

end Sys2Proof.Machine
end

section
/-! PROOFS. The matrix engine's operands (42_matrix.md section 2): rotW (R137), the basil (R141) and the padding (R142,
R143). -/

namespace Sys2Proof.Machine

/-! ### rotW -/

/-- R137: word k of rotW is the block's word k + 11 mod 12. -/
theorem rotW_getElem (o : Block) {k : Nat} (h : k < 12) :
    (rotW o)[k] = o[(k + 11) % 12]'(Nat.mod_lt _ (by decide)) := by
  simp [rotW]

/-- Settles O23: (k + 11) mod 12 is k - 1 for every word but the first. -/
theorem rotWMovesWords : Obligations.RotWMovesWords := by
  intro o
  refine ⟨rotW_getElem o (by decide), fun k hpos h => ?_⟩
  rw [rotW_getElem o h]
  congr 1
  omega

/-! ### The basil -/

/-- Bytes inside a buffer are a piece of it. -/
theorem bytesAt_eq_take_drop {buf : List Byte} {a n : Nat} (h : a + n ≤ buf.length) :
    bytesAt buf a n = (buf.drop a).take n := by
  apply List.ext_getElem
  · simp only [bytesAt_length, List.length_take, List.length_drop]
    omega
  · intro j hj _
    rw [bytesAt_length] at hj
    simp [bytesAt, List.getElem?_eq_getElem (show a + j < buf.length by omega)]

/-- R141: the registers of the basil, in order. -/
def basilWords (p : Params) : List Word := [p.klen, p.pwdlen, p.saltlen, p.tcost, p.nrows, p.ncols]

theorem basil_eq_flatMap (p : Params) : basil p = (basilWords p).flatMap leBytes := by
  simp [basil, basilWords]

theorem basil_length (p : Params) : (basil p).length = 48 := rfl

/-- R141: bytes 8n .. 8n+7 of the basil are those of its n-th register. -/
theorem basil_slice (p : Params) {n : Nat} {w : Word} (h : (basilWords p)[n]? = some w) :
    ((basil p).drop (8 * n)).take 8 = leBytes w := by
  obtain ⟨hn, rfl⟩ := List.getElem?_eq_some_iff.1 h
  rw [basil_eq_flatMap, flatMap_leBytes_slice _ n hn]

/-- Settles O26, register by register. -/
theorem basilLayout : Obligations.BasilLayout := by
  refine fun p => ⟨basil_length p, fun n w hw => ?_⟩
  have hslice := basil_slice p hw
  have hn : n < 6 := (List.getElem?_eq_some_iff.1 hw).1
  constructor
  · rw [bytesAt_eq_take_drop (by rw [basil_length]; omega), hslice, leWord_leBytes]
  · intro i hi
    rw [← leBytes_getElem? w hi, ← hslice, List.getElem?_take_of_lt hi, List.getElem?_drop]

/-! ### The padding -/

section Padding

variable {blk : Nat} (data : List Byte)

/-- R142: the number of bytes of the padded data. -/
def paddedLength (blk : Nat) (data : List Byte) : Nat := blk * (data.length / blk + 1)

/-- R142, R143: right after the data 0x80 and then zeros, the last byte's bit 0 set. -/
theorem padTo_getElem?_pad {i : Nat} (hlo : data.length ≤ i) (hi : i < paddedLength blk data) :
    (padTo blk data)[i]? =
      some ((if i = data.length then 0x80 else 0) ||| if i + 1 = paddedLength blk data then 0x01 else 0) := by
  unfold paddedLength at hi ⊢
  have hbuf : (data ++ List.replicate (blk * (data.length / blk + 1) - data.length) (0 : Byte))[i]? = some 0 := by
    rw [List.getElem?_append_right hlo, List.getElem?_replicate, if_pos (by omega)]
  have hlast : blk * (data.length / blk + 1) - 1 = i ↔ i + 1 = blk * (data.length / blk + 1) := by omega
  have hlen : data.length < data.length + (blk * (data.length / blk + 1) - data.length) := by omega
  simp only [padTo, List.getElem?_modify, List.getElem?_set, hbuf, List.length_append, List.length_replicate, hlast,
    hlen, eq_comm (a := data.length)]
  split_ifs <;> rfl

variable (hblk : 0 < blk)
include hblk

theorem length_lt_paddedLength : data.length < paddedLength blk data := Nat.lt_mul_div_succ _ hblk

theorem padTo_length : (padTo blk data).length = paddedLength blk data := by
  have h := length_lt_paddedLength data hblk
  unfold paddedLength at h ⊢
  simp only [padTo, List.length_modify, List.length_set, List.length_append, List.length_replicate]
  omega

/-- R142, R143: the data itself comes first. -/
theorem padTo_getElem?_data {i : Nat} (hi : i < data.length) : (padTo blk data)[i]? = data[i]? := by
  have h := length_lt_paddedLength data hblk
  unfold paddedLength at h
  have hlast : blk * (data.length / blk + 1) - 1 ≠ i := by omega
  simp [padTo, List.getElem?_append_left hi, hlast]

end Padding

/-- Settles O27: the one pad byte is 0x80 and 0x01 at once. -/
theorem paddingLayout : Obligations.PaddingLayout := by
  intro blk data hblk N
  have hlt : data.length < N := length_lt_paddedLength data hblk
  have hpad {i : Nat} (hlo : data.length ≤ i) (hi : i < N) := padTo_getElem?_pad data hlo hi
  have hN : paddedLength blk data = N := rfl
  rw [hN] at hpad
  refine ⟨padTo_length data hblk, hlt, fun i => padTo_getElem?_data data hblk, fun hone => ?_,
    fun hmore => ⟨?_, ?_, ?_⟩⟩
  · rw [hpad le_rfl hlt, if_pos rfl, if_pos hone]
    rfl
  · rw [hpad le_rfl hlt, if_pos rfl, if_neg (by omega)]
    rfl
  · rw [hpad (by omega) (by omega), if_neg (by omega), if_pos (by omega)]
    rfl
  · intro i hlo hi
    rw [hpad (by omega) (by omega), if_neg (by omega), if_neg (by omega)]
    rfl

end Sys2Proof.Machine
end

section
/-! PROOFS. What a command can come to, said once for all 19; then when it raises PHASE (R136, R208) and how it moves
PHASE (R135). -/

namespace Sys2Proof.Machine

variable {i : Instr} {s t u : State}

/-- `u` is what command `i`, its checks passed, makes of `s` before it completes. -/
def commandEffect (i : Instr) (s u : State) : Prop :=
  match i with
  | .nop => u = s
  | .clrerr => u = s.clearError
  | .srst => u = s.softReset
  | .init => u = s.setSponge (initState s.cfg)
  | .perm => u = s.setSponge (p12 s.cfg.rot s.sponge)
  | .permR => u = s.setSponge (p1 s.cfg.rot s.sponge)
  | .absorb => u = s.setSponge (absorbBlock s.cfg.rot s.sponge s.blkIn)
  | .duplex => u = s.afterDuplex (duplexFull s.cfg.rot s.sponge s.blkIn)
  | .duplexR => u = s.afterDuplex (duplexRed s.cfg.rot s.sponge s.blkIn)
  | .squeeze n => u = s.squeezeToOut n
  | .mStart => validate s.cfg s.params = none ∧ u = startBody s
  | .mAbsorb => u = absorbBody s
  | .mRow0 => u = row0Body s
  | .mRow1 => u = row1Body s
  | .mSetupRow => u = setupRowBody s
  | .mWanderRow => u = wanderRowBody s
  | .mWrapup => u = wrapupBody s
  | .derive => validate s.cfg s.params = none ∧ u = deriveRun s
  | .deriveFixed => u = deriveRun (s.setParams (fixedParams s.cfg))

/-- R212 to R214: what command `i` can make of `s`. -/
inductive CommandOutcome (i : Instr) (s : State) : State → Prop
  | suppressed (herr : s.err ≠ .none) : CommandOutcome i s s.complete
  | illegalPhase (hp : s.phase ∉ legalPhases i) : CommandOutcome i s (s.raise .phase).complete
  | checkFailed (code : ErrCode) (hcode : code ≠ .phase) : CommandOutcome i s (s.raise code).complete
  | effect (u : State) (hp : s.phase ∈ legalPhases i) (hu : commandEffect i s u) : CommandOutcome i s u.complete

section Outcomes

variable {legal : Phase → Bool} {body : State → Except ErrCode State} {f : State → State}

/-- R212: a command of the common execution. -/
theorem runCommand_outcome (hlegal : ∀ p, legal p = true ↔ p ∈ legalPhases i)
    (hbody : ∀ u, body s = .ok u → commandEffect i s u)
    (herror : ∀ code, body s = .error code → code ≠ .phase) (h : runCommand legal body s = .next t) :
    CommandOutcome i s t := by
  rcases runCommand_cases legal body s with ⟨herr, h'⟩ | ⟨-, hp, h'⟩ | ⟨-, hp, u, hu, h'⟩ | ⟨-, -, code, hcode, h'⟩ <;>
    cases h.symm.trans h'
  · exact .suppressed herr
  · exact .illegalPhase (by simp [← hlegal, hp])
  · exact .effect u ((hlegal _).1 hp) (hbody u hu)
  · exact .checkFailed code (herror code hcode)

/-- A command whose body raises no error. -/
theorem runCommand_total_outcome (hlegal : ∀ p, legal p = true ↔ p ∈ legalPhases i)
    (h : runCommand legal (fun s => .ok (f s)) s = .next t) (hf : commandEffect i s (f s)) : CommandOutcome i s t :=
  runCommand_outcome hlegal (fun u hu => by cases hu; exact hf) (fun _ he => by cases he) h

end Outcomes

/-- R136: a list of all eight phases. -/
theorem anyPhase_iff_mem (p : Phase) :
    anyPhase p = true ↔
      p ∈ [Phase.idle, .absorbing, .rowInit0, .rowInit1, .setup, .wandering, .wrapUp, .done] := by
  cases p <;> decide

/-- R136: the list of the sponge primitives' phases. -/
theorem idleOrDone_iff_mem (p : Phase) : idleOrDone p = true ↔ p ∈ [Phase.idle, .done] := by
  simp [idleOrDone_iff]

/-- R136: a phase step's list. -/
theorem onlyIn_iff_mem (q p : Phase) : onlyIn q p = true ↔ p ∈ [q] := by
  simp [onlyIn_iff]

/-- R140: validation does not raise PHASE. -/
theorem validate_ne_phase {cfg : Config} {q : Params} {code : ErrCode} (h : validate cfg q = some code) :
    code ≠ .phase := by
  rintro rfl
  exact absurd (validate_eq_some h) (by decide)

/-- Every outcome of every command, in every state. -/
theorem exec_outcome (h : exec i s = .next t) : CommandOutcome i s t := by
  unfold exec at h
  cases i with
  | clrerr | srst =>
    cases h
    exact .effect _ ((anyPhase_iff_mem _).1 rfl) rfl
  | nop => exact runCommand_total_outcome (f := id) anyPhase_iff_mem h rfl
  | init | perm | permR | absorb | duplex | duplexR => exact runCommand_total_outcome idleOrDone_iff_mem h rfl
  | squeeze n =>
    refine runCommand_outcome idleOrDone_iff_mem (fun u hu => (squeezeBody_ok hu).2) (fun code hcode => ?_) h
    rw [squeezeBody_error hcode]
    decide
  | mStart =>
    exact runCommand_outcome anyPhase_iff_mem (fun _ => validatedStart_ok)
      (fun _ hcode => validate_ne_phase (validatedStart_eq_error_iff.1 hcode)) h
  | mAbsorb | mRow0 | mRow1 | mSetupRow | mWanderRow | mWrapup =>
    exact runCommand_total_outcome (onlyIn_iff_mem _) h rfl
  | derive =>
    exact runCommand_outcome anyPhase_iff_mem (fun _ => deriveBody_ok)
      (fun _ hcode => validate_ne_phase (deriveBody_eq_error_iff.1 hcode)) h
  | deriveFixed =>
    exact runCommand_outcome anyPhase_iff_mem
      (fun _ hu => (deriveBody_ok (s := s.setParams (fixedParams s.cfg)) hu).2)
      (fun _ hcode => validate_ne_phase (deriveBody_eq_error_iff (s := s.setParams (fixedParams s.cfg)).1 hcode)) h

/-! ### The error PHASE -/

/-- R206: a command that has passed its checks records no error. -/
theorem commandEffect_err (herr : s.err = .none) (hu : commandEffect i s u) : u.err = .none := by
  cases i with
  | nop => rwa [hu]
  | clrerr | srst => rw [hu]; rfl
  | init | perm | permR | absorb => rw [hu]; exact (State.setSponge_err s _).trans herr
  | duplex | duplexR => rw [hu]; exact (afterDuplex_err s _).trans herr
  | squeeze n => rw [hu]; exact herr
  | mStart => obtain ⟨-, rfl⟩ := hu; exact herr
  | mAbsorb => rw [hu]; exact (phaseFrame_err (absorbBody_frame s)).trans herr
  | mRow0 => rw [hu]; exact (phaseFrame_err (row0Body_frame s)).trans herr
  | mRow1 => rw [hu]; exact (phaseFrame_err (row1Body_frame s)).trans herr
  | mSetupRow => rw [hu]; exact (phaseFrame_err (setupRowBody_frame s)).trans herr
  | mWanderRow => rw [hu]; exact (phaseFrame_err (wanderRowBody_frame s)).trans herr
  | mWrapup => rw [hu]; exact (phaseFrame_err (wrapupBody_frame s)).trans herr
  | derive => obtain ⟨-, rfl⟩ := hu; exact (phaseFrame_err (deriveRun_frame s)).trans herr
  | deriveFixed => rw [hu]; exact (phaseFrame_err (deriveRun_frame _)).trans herr

/-- Settles O9: PHASE is raised by the check of R208 alone. -/
theorem phaseLegality : Obligations.PhaseLegality := by
  refine ⟨fun _ _ => exec_of_illegal_phase, fun i s t herr hp h => ?_⟩
  cases exec_outcome h with
  | suppressed hne => exact absurd herr hne
  | illegalPhase hnot => exact absurd hp hnot
  | checkFailed code hcode => exact hcode
  | effect u _ hu =>
    have := commandEffect_err herr hu
    rw [State.complete_err, this]
    decide

/-! ### The moves of PHASE -/

/-- R144: the phase EnterWandering leads to does not depend on the cursor. -/
theorem afterEnterWandering_phase (q : Params) (k k' : Cursor) :
    (afterEnterWandering q k).1 = (afterEnterWandering q k').1 := by
  unfold afterEnterWandering
  split <;> rfl

/-- R153: where M_ROW1 leads. -/
theorem afterRow1_move (q : Params) (k : Cursor) :
    2 < q.nrows.toNat ∧ (afterRow1 q k).1 = .setup ∨
      q.nrows.toNat ≤ 2 ∧ (afterRow1 q k).1 = (afterEnterWandering q k).1 := by
  unfold afterRow1
  split
  next hR => exact .inl ⟨hR, rfl⟩
  next hR => exact .inr ⟨Nat.le_of_not_lt hR, rfl⟩

/-- R154: a Setup row leaves its phase after the last row alone. -/
theorem afterSetupRow_move {q : Params} {p : Phase} {k : Cursor} (h : (afterSetupRow q p k).1 ≠ p) :
    BitVec.ofNat 64 (k.row.toNat + 1) = q.nrows ∧ (afterSetupRow q p k).1 = (afterEnterWandering q k).1 := by
  unfold afterSetupRow at h ⊢
  split at h
  next hlast =>
    rw [if_pos hlast]
    exact ⟨nextSetupCursor_row k ▸ hlast, afterEnterWandering_phase _ _ _⟩
  · exact absurd rfl h

/-- R156: a row visit leaves its phase when the last pass is back at row 0 alone. -/
theorem afterWanderRow_move {q : Params} {p : Phase} {rowa : Nat} {k : Cursor} (hR : 0 < q.nrows.toNat)
    (h : (afterWanderRow q p rowa k).1 ≠ p) :
    k.tau = q.tcost ∧ ((k.row.toNat : Int) + k.step.toInt) % (q.nrows.toNat : Int) = 0 ∧
      (afterWanderRow q p rowa k).1 = .wrapUp := by
  unfold afterWanderRow at h ⊢
  dsimp only at h ⊢
  split at h
  next hlast =>
    obtain ⟨hrow, htau⟩ := hlast
    have hzero := nextWanderCursor_row_toNat hR q.nrows.isLt q.tcost rowa k
    rw [hrow] at hzero
    refine ⟨htau, ?_, if_pos ⟨hrow, htau⟩⟩
    rw [← emod_cast _ hR, ← hzero]
    rfl
  · exact absurd rfl h

theorem afterDuplex_phase (s : State) (r : Sponge × Block) : (s.afterDuplex r).phase = s.phase := rfl

/-- R135: how a command that has passed its checks moves PHASE. -/
theorem commandEffect_move (hs : s.Inv) (hp : s.phase ∈ legalPhases i) (hu : commandEffect i s u)
    (hmove : u.phase ≠ s.phase) : allowedMove i s s.phase u.phase := by
  cases i with
  | nop | clrerr | squeeze n => exact absurd (congrArg State.phase hu) hmove
  | init | perm | permR | absorb => exact absurd ((congrArg State.phase hu).trans (State.setSponge_phase s _)) hmove
  | duplex | duplexR => exact absurd ((congrArg State.phase hu).trans (afterDuplex_phase s _)) hmove
  | srst | deriveFixed => exact congrArg State.phase hu
  | mStart | derive => exact ⟨hu.1, congrArg State.phase hu.2⟩
  | mAbsorb | mRow0 | mWrapup => exact ⟨List.mem_singleton.1 hp, congrArg State.phase hu⟩
  | mRow1 =>
    rw [show u = _ from hu, row1Body_eq]
    exact ⟨List.mem_singleton.1 hp, afterRow1_move s.params s.cursor⟩
  | mSetupRow =>
    rw [show u = _ from hu, setupRowBody_eq] at hmove ⊢
    exact ⟨List.mem_singleton.1 hp, afterSetupRow_move hmove⟩
  | mWanderRow =>
    have hphase := List.mem_singleton.1 hp
    rw [show u = _ from hu, wanderRowBody_eq] at hmove ⊢
    exact ⟨hphase, afterWanderRow_move (Nat.zero_lt_of_lt (hs.wandering hphase).row_lt) hmove⟩

/-- Settles O38: a suppressed command and an error entry keep PHASE. -/
theorem phaseTransitions : Obligations.PhaseTransitions := by
  intro i s t hs h hmove
  cases exec_outcome h with
  | suppressed _ => exact absurd rfl hmove
  | illegalPhase _ => exact absurd rfl hmove
  | checkFailed code _ => exact absurd rfl hmove
  | effect u hp hu => exact commandEffect_move (u := u) hs hp hu hmove

end Sys2Proof.Machine
end

section
/-! PROOFS. Validation (R140) and M_START (R150). -/

namespace Sys2Proof.Machine

variable {s : State} {cfg : Config} {q : Params}

/-- R140: the parameter checks, which come before the matrix's. -/
def paramsPass (cfg : Config) (q : Params) : Prop :=
  (2 ≤ q.nrows.toNat ∧ q.nrows.toNat ≤ 65535) ∧ (1 ≤ q.ncols.toNat ∧ q.ncols.toNat ≤ 65535) ∧
    q.klen.toNat ≤ cfg.outBytes ∧ q.inputLength ≤ cfg.inBytes ∧ padLen cfg q.inputLength ≤ 96 * q.ncols.toNat

/-- R140: a failing parameter check gives PARAM. -/
theorem validate_of_not_paramsPass (h : ¬ paramsPass cfg q) : validate cfg q = some .param := by
  unfold paramsPass at h
  unfold validate
  split_ifs
  any_goals rfl
  all_goals omega

/-- R140: a matrix that does not fit gives ALLOC, the parameter checks being passed. -/
theorem validate_of_large (h : paramsPass cfg q) (hmat : cfg.matWords < q.nrows.toNat * q.ncols.toNat * 12) :
    validate cfg q = some .alloc := by
  obtain ⟨hrows, hcols, hkey, hin, hpad⟩ := h
  unfold validate
  rw [if_neg (by omega), if_neg (by omega), if_neg (by omega), if_neg (by omega), if_neg (by omega), if_pos hmat]

/-- R140: with both passed nothing is raised. -/
theorem validate_of_fits (h : paramsPass cfg q) (hmat : q.nrows.toNat * q.ncols.toNat * 12 ≤ cfg.matWords) :
    validate cfg q = none := by
  obtain ⟨hrows, hcols, hkey, hin, hpad⟩ := h
  exact (validate_eq_none_iff cfg q).2 ⟨hrows, hcols, hkey, hin, hpad, hmat⟩

/-- R140: the padded length by profile. -/
theorem padLen_eq (cfg : Config) (L : Nat) :
    padLen cfg L =
      (if cfg.profile = .doc then 96 else 64) * ((L + 48) / (if cfg.profile = .doc then 96 else 64) + 1) := by
  unfold padLen padBlock
  cases cfg.profile <;> rfl

/-- R150: M_START with valid parameters. -/
theorem exec_mStart_of_valid (herr : s.err = .none) (hv : validate s.cfg s.params = none) :
    exec .mStart s = .next (startBody s).complete :=
  runCommand_ok herr rfl (by simp [validatedStart, hv])

/-- Settles O25: every phase is legal, and the body writes S, the cursors and PHASE. -/
theorem mStartCommand : Obligations.MStartCommand := fun _ herr hv => exec_mStart_of_valid herr hv

/-- Settles O24: M_START and DERIVE both begin with Validate. -/
theorem validationErrors : Obligations.ValidationErrors := by
  intro s herr R C L bin pass
  have hpass : pass ↔ paramsPass s.cfg s.params := by
    unfold paramsPass
    rw [padLen_eq]
    rfl
  have hfail {code : ErrCode} (hv : validate s.cfg s.params = some code) :
      ∀ i ∈ [Instr.mStart, .derive], exec i s = .next (s.raise code).complete := by
    simp only [List.forall_mem_cons]
    exact ⟨exec_mStart_of_invalid herr hv, exec_derive_of_invalid herr hv, nofun⟩
  have hok (hv : validate s.cfg s.params = none) :
      ∀ i ∈ [Instr.mStart, .derive], ∃ t, exec i s = .next t ∧ t.err = .none := by
    have hrun : (deriveRun s).complete.err = .none := by
      rw [State.complete_err, phaseFrame_err (deriveRun_frame s), herr]
    simp only [List.forall_mem_cons]
    exact ⟨⟨_, exec_mStart_of_valid herr hv, herr⟩, ⟨_, exec_derive_of_valid herr hv, hrun⟩, nofun⟩
  exact fun i hi => ⟨fun h => hfail (validate_of_not_paramsPass (hpass.not.1 h)) i hi,
    fun h hmat => hfail (validate_of_large (hpass.1 h) hmat) i hi,
    fun h hmat => hok (validate_of_fits (hpass.1 h) hmat) i hi⟩

end Sys2Proof.Machine
end

section
/-! PROOFS. M_ABSORB (R151), M_ROW1 (R153) and M_SETUP_ROW (R154), each when the bytes it reads are written. -/

namespace Sys2Proof.Machine

variable {s t : State}

/-! ### M_ABSORB -/

/-- R115: absorbing the blocks in order. -/
theorem foldl_absorbBlock (rot : Rot) (S : Sponge) (b : Nat → Block) (n : Nat) :
    (List.range n).foldl (fun S i => absorbBlock rot S (b i)) S = absorbChain rot S b n := by
  induction n with
  | zero => rfl
  | succ n ih =>
    rw [List.range_succ, List.foldl_append, ih]
    rfl

/-- R151: S after M_ABSORB. -/
theorem absorbBody_sponge (s : State) :
    (absorbBody s).sponge = absorbChain s.cfg.rot s.sponge (s.inputBlock s.paddedInput) s.inputBlocks :=
  foldl_absorbBlock _ _ _ _

/-- R142, R143: the padded input, IN holding the written bytes `input`. -/
theorem paddedInput_of_holds {input : List Byte} (hlen : input.length = s.params.inputLength)
    (h : s.holds inBase input) : s.paddedInput = padTo (padBlock s.cfg) (input ++ basil s.params) := by
  rw [State.paddedInput, State.loadBytes, ← hlen, load_of_written h]

/-- R151, profile DOC: the blocks stand 96 bytes apart. -/
theorem inputBlock_doc (hprofile : s.cfg.profile = .doc) (buf : List Byte) :
    s.inputBlock buf = fun i => leBlock (bytesAt buf (96 * i) 96) := by
  funext i
  simp only [State.inputBlock, State.inputStride, hprofile]

/-- R151, profile REF: the blocks have 64 bytes, and NCOLS gives their distance. -/
theorem inputBlock_ref (hprofile : s.cfg.profile = .ref) (buf : List Byte) :
    s.inputBlock buf = fun i =>
      leBlock (bytesAt buf ((if s.params.ncols.toNat = 4 then 64 else 512) * i) 64 ++ List.replicate 32 0) := by
  funext i
  simp only [State.inputBlock, State.inputStride, hprofile]

/-- R151: M_ABSORB, `S` being the sponge state after it. -/
theorem exec_mAbsorb {S : Sponge} (herr : s.err = .none) (hp : s.phase = .absorbing)
    (hS : absorbChain s.cfg.rot s.sponge (s.inputBlock s.paddedInput) s.inputBlocks = S) :
    exec .mAbsorb s = .next
      { s with sponge := S, phase := .rowInit0, draws := s.draws + 1, busy := false, engineDelay := 0 } := by
  subst hS
  rw [← absorbBody_sponge]
  exact runCommand_moveTo herr hp (absorbBody_eq s)

/-- Settles O28: the input is read as written, and the profile says how it is cut into blocks. -/
theorem mAbsorbCommand : Obligations.MAbsorbCommand := by
  intro s input herr hp hlen hin stride doc ref docBlock refBlock
  refine ⟨s.draws + 1, exec_mAbsorb herr hp ?_⟩
  rw [paddedInput_of_holds hlen hin, State.inputBlocks, show s.params.inputLength = input.length from hlen.symm]
  cases hprofile : s.cfg.profile with
  | doc => simp only [inputBlock_doc hprofile, padBlock, hprofile, docBlock, doc]
  | ref => simp only [inputBlock_ref hprofile, padBlock, hprofile, refBlock, ref, stride]

/-! ### M_ROW1 -/

/-- R153: a column of M_ROW1, its input cell holding the written block `a`, `S` being the sponge state after its
duplexing. -/
theorem row1Column_of_cellHolds {c : Nat} {a : Block} {S : Sponge} (ha : s.cellHolds 0 c a)
    (hS : p1 s.cfg.rot (xorRate s.sponge a) = S) :
    row1Column s c = (s.nextDraw.setSponge S).writeCell 1 (s.params.ncols.toNat - 1 - c) (blockXor a (rate S)) := by
  rw [row1Column, readCell_of_cellHolds ha, ← hS]
  rfl

/-- The state `t` that the first `n` columns of M_ROW1 begun in `s` leave, row 0 holding the blocks `a`: S, row 1 filled
from its last column backward, and row 0 as it was. -/
structure Row1Filled (s : State) (a : Nat → Block) (n : Nat) (t : State) : Prop where
  frame : dataFrame s t
  sponge : t.sponge = duplexChain s.cfg.rot s.sponge a n
  filled : ∀ c, c < n → t.cellHolds 1 (s.params.ncols.toNat - 1 - c)
    (blockXor (a c) (rate (duplexChain s.cfg.rot s.sponge a (c + 1))))
  waiting : ∀ c, c < s.params.ncols.toNat → t.cellHolds 0 c (a c)

/-- R153: one column more. -/
theorem Row1Filled.next {a : Nat → Block} {n : Nat} (hn : n < s.params.ncols.toNat) (h : Row1Filled s a n t) :
    Row1Filled s a (n + 1) (row1Column t n) := by
  have hS : p1 t.cfg.rot (xorRate t.sponge (a n)) = duplexChain s.cfg.rot s.sponge a (n + 1) := by
    rw [dataFrame_cfg h.frame, h.sponge]
    rfl
  have hframe := dataFrame_trans h.frame (row1Column_frame t n)
  rw [row1Column_of_cellHolds (h.waiting n hn) hS] at hframe ⊢
  generalize hu : t.nextDraw.setSponge (duplexChain s.cfg.rot s.sponge a (n + 1)) = u at hframe ⊢
  have hsponge : u.sponge = duplexChain s.cfg.rot s.sponge a (n + 1) := by rw [← hu, State.setSponge_sponge]
  have hparams : u.params = t.params := by rw [← hu, State.setSponge_params, State.nextDraw_params]
  have hmem : u.mem = t.mem := by rw [← hu, State.setSponge_mem, State.nextDraw_mem]
  have hcols : u.params.ncols.toNat = s.params.ncols.toNat := by rw [hparams, dataFrame_params h.frame]
  rw [dataFrame_params h.frame] at hframe ⊢
  rw [← hcols] at hn
  constructor
  case frame => exact hframe
  case sponge => exact hsponge
  case filled =>
    intro c hc
    rw [← hcols]
    rcases Nat.lt_succ_iff_lt_or_eq.1 hc with hc | rfl
    · exact writeCell_keeps_cell (mirror_lt hn) (mirror_lt (hc.trans hn)) (.inr (mirror_ne hc hn))
        (cellHolds_congr hparams hmem (hcols ▸ h.filled c hc))
    · exact writeCell_cellHolds _ _ _ _
  case waiting =>
    intro c hc
    rw [← hcols] at hc ⊢
    exact writeCell_keeps_cell (mirror_lt hn) hc (.inl (by decide))
      (cellHolds_congr hparams hmem (h.waiting c (hcols ▸ hc)))

/-- Settles O30, by induction on the columns: they write row 1 and read row 0. -/
theorem mRow1Command : Obligations.MRow1Command := by
  intro s a herr hp ha C S next
  have hcols : Row1Filled s a C (s.columns row1Column) :=
    columns_induction ⟨dataFrame_refl s, rfl, nofun, ha⟩ fun _ _ => Row1Filled.next
  have hwrites := row1Columns_writes s
  obtain ⟨T, m, d, hframe⟩ := hcols.frame
  rw [hframe] at hcols hwrites
  obtain rfl : T = S C := hcols.sponge
  refine ⟨m, d, ?_, fun c hc => cellHolds_congr rfl rfl (hcols.filled c hc), fun x hx => hwrites.frame x ?_⟩
  · refine (runCommand_moveTo herr hp (row1Body_eq s)).trans ?_
    rw [hframe]
    rfl
  · rintro ⟨hlo, hhi⟩
    omega

/-! ### M_SETUP_ROW -/

/-- R154: a column of M_SETUP_ROW, `S` being the sponge state after its duplexing. -/
theorem setupColumn_of_cellHolds {row prev rowa c : Nat} {a b : Block} {S : Sponge} (ha : s.cellHolds prev c a)
    (hb : s.cellHolds rowa c b) (hS : p1 s.cfg.rot (xorRate s.sponge (blockAdd a b)) = S) :
    setupColumn row prev rowa s c =
      ((s.nextDraw.nextDraw.setSponge S).writeCell row (s.params.ncols.toNat - 1 - c) (blockXor a (rate S))).xorCell
        rowa c (rotW (rate S)) := by
  rw [setupColumn, duplexRows_of_cellHolds ha hb, hS]

/-- R154: the two writes of a column leave every other cell alone. -/
theorem setupWrites_keep_cell {row rowa c c' r k : Nat} {x y b : Block} (hc : c < s.params.ncols.toNat)
    (hc' : c' < s.params.ncols.toNat) (hk : k < s.params.ncols.toNat) (hrow : row ≠ r ∨ c' ≠ k)
    (hrowa : rowa ≠ r ∨ c ≠ k) (h : s.cellHolds r k b) :
    ((s.writeCell row c' x).xorCell rowa c y).cellHolds r k b :=
  xorCell_keeps_cell hc hk hrowa (writeCell_keeps_cell hc' hk hrow h)

section Columns

variable (s : State) (a b : Nat → Block) (row prev rowa : Nat)

/-- R154: S after the first `n` duplexings of a Setup row. -/
def setupChain (n : Nat) : Sponge := duplexChain s.cfg.rot s.sponge (fun c => blockAdd (a c) (b c)) n

/-- The state `t` that the first `n` columns of a Setup row begun in `s` leave, rows PREV and ROWA holding the blocks
`a` and `b` before it: S, row ROW filled from its last column backward, row ROWA updated forward, and the other cells of
rows PREV and ROWA as they were. -/
structure SetupColumns (n : Nat) (t : State) : Prop where
  frame : dataFrame s t
  sponge : t.sponge = setupChain s a b n
  filled : ∀ c, c < n → t.cellHolds row (s.params.ncols.toNat - 1 - c)
    (blockXor (a c) (rate (setupChain s a b (c + 1))))
  updated : ∀ c, c < n → t.cellHolds rowa c (blockXor (b c) (rotW (rate (setupChain s a b (c + 1)))))
  prev_waiting : ∀ c, c < s.params.ncols.toNat → t.cellHolds prev c (a c)
  rowa_waiting : ∀ c, n ≤ c → c < s.params.ncols.toNat → t.cellHolds rowa c (b c)

variable {s a b row prev rowa}

/-- R154: one column more; the three rows are different ones. -/
theorem SetupColumns.next {n : Nat} (hprev : row ≠ prev) (hrowa : row ≠ rowa) (hne : rowa ≠ prev)
    (hn : n < s.params.ncols.toNat) (h : SetupColumns s a b row prev rowa n t) :
    SetupColumns s a b row prev rowa (n + 1) (setupColumn row prev rowa t n) := by
  have hS : p1 t.cfg.rot (xorRate t.sponge (blockAdd (a n) (b n))) = setupChain s a b (n + 1) := by
    rw [dataFrame_cfg h.frame, h.sponge]
    rfl
  have hframe := dataFrame_trans h.frame (setupColumn_frame row prev rowa t n)
  rw [setupColumn_of_cellHolds (h.prev_waiting n hn) (h.rowa_waiting n le_rfl hn) hS] at hframe ⊢
  generalize hu : t.nextDraw.nextDraw.setSponge (setupChain s a b (n + 1)) = u at hframe ⊢
  have hsponge : u.sponge = setupChain s a b (n + 1) := by rw [← hu, State.setSponge_sponge]
  have hparams : u.params = t.params := by
    rw [← hu, State.setSponge_params, State.nextDraw_params, State.nextDraw_params]
  have hmem : u.mem = t.mem := by rw [← hu, State.setSponge_mem, State.nextDraw_mem, State.nextDraw_mem]
  have hcols : u.params.ncols.toNat = s.params.ncols.toNat := by rw [hparams, dataFrame_params h.frame]
  rw [dataFrame_params h.frame] at hframe ⊢
  have hkeep {r k : Nat} {x : Block} (hk : k < s.params.ncols.toNat)
      (hr : row ≠ r ∨ s.params.ncols.toNat - 1 - n ≠ k) (hr' : rowa ≠ r ∨ n ≠ k) (hold : t.cellHolds r k x) :=
    setupWrites_keep_cell (x := blockXor (a n) (rate (setupChain s a b (n + 1))))
      (y := rotW (rate (setupChain s a b (n + 1)))) (by omega) (by omega) (by omega) hr hr'
      (cellHolds_congr hparams hmem hold)
  constructor
  case frame => exact hframe
  case sponge => exact hsponge
  case filled =>
    intro c hc
    rcases Nat.lt_succ_iff_lt_or_eq.1 hc with hc | rfl
    · exact hkeep (by omega) (.inr (mirror_ne hc hn)) (.inl hrowa.symm) (h.filled c hc)
    · exact xorCell_keeps_cell (hn.trans_eq hcols.symm) ((mirror_lt hn).trans_eq hcols.symm) (.inl hrowa.symm)
        (writeCell_cellHolds _ _ _ _)
  case updated =>
    intro c hc
    rcases Nat.lt_succ_iff_lt_or_eq.1 hc with hc | rfl
    · exact hkeep (by omega) (.inl hrowa) (.inr hc.ne') (h.updated c hc)
    · exact xorCell_cellHolds _ (writeCell_keeps_cell (by omega) (by omega) (.inl hrowa)
        (cellHolds_congr hparams hmem (h.rowa_waiting c le_rfl hn)))
  case prev_waiting => exact fun c hc => hkeep hc (.inl hprev) (.inl hne) (h.prev_waiting c hc)
  case rowa_waiting =>
    exact fun c hnc hc => hkeep hc (.inl hrowa) (.inr (Nat.ne_of_lt hnc)) (h.rowa_waiting c (by omega) hc)

/-- R154: all columns of a Setup row. -/
theorem setupColumns (hprev : row ≠ prev) (hrowa : row ≠ rowa) (hne : rowa ≠ prev)
    (ha : ∀ c, c < s.params.ncols.toNat → s.cellHolds prev c (a c))
    (hb : ∀ c, c < s.params.ncols.toNat → s.cellHolds rowa c (b c)) :
    SetupColumns s a b row prev rowa s.params.ncols.toNat (s.columns (setupColumn row prev rowa)) :=
  columns_induction ⟨dataFrame_refl s, rfl, nofun, nofun, ha, fun c _ => hb c⟩ fun _ _ =>
    SetupColumns.next hprev hrowa hne

end Columns

/-- R154: PHASE and the cursor after a Setup row, the row number taken as an integer. -/
theorem SetupCursor.afterSetupRow_eq {q : Params} {p : Phase} {k : Cursor} (h : SetupCursor q.nrows.toNat k) :
    afterSetupRow q p k =
      if k.row.toNat + 1 = q.nrows.toNat then afterEnterWandering q (nextSetupCursor k)
      else (p, nextSetupCursor k) := by
  have hrow := h.row_lt
  have hlast : (nextSetupCursor k).row = q.nrows ↔ k.row.toNat + 1 = q.nrows.toNat := by
    rw [nextSetupCursor_row, ← BitVec.toNat_inj, toNat_ofNat_of_fits (by have := q.nrows.isLt; omega)]
  unfold afterSetupRow
  simp only [hlast]

/-- Settles O31, by induction on the columns: ROW, PREV and ROWA are three different rows (R155). -/
theorem mSetupRowCommand : Obligations.MSetupRowCommand := by
  intro s a b herr hp hcur ha hb C S k next
  have hlt := hcur.rowa_lt
  have hpr := hcur.prev_row
  have hcols := setupColumns (row := s.cursor.row.toNat) (by omega) (by omega) (by omega) ha hb
  have hwrites := setupColumns_writes s.cursor.row.toNat s.cursor.prev.toNat s.cursor.rowa.toNat s
  obtain ⟨T, m, d, hframe⟩ := hcols.frame
  rw [hframe] at hcols hwrites
  obtain rfl : T = S C := hcols.sponge
  refine ⟨m, d, ?_, fun c hc => ⟨cellHolds_congr rfl rfl (hcols.filled c hc),
    cellHolds_congr rfl rfl (hcols.updated c hc)⟩, fun x hrow hrowa => hwrites.frame x ?_⟩
  · refine (runCommand_moveTo herr hp (setupRowBody_eq s)).trans ?_
    rw [hframe, hp, hcur.afterSetupRow_eq]
    rfl
  · rintro (⟨hlo, hhi⟩ | ⟨hlo, hhi⟩) <;> omega

end Sys2Proof.Machine
end

section
/-! PROOFS. The matrix cursor's schedules: Setup rows (R154, R155) and the Wandering passes (R139, R157). -/

namespace Sys2Proof.Machine

variable {R t : Nat} {k : Cursor}

/-! ### Setup rows -/

@[simp] theorem nextSetupCursor_tau (k : Cursor) : (nextSetupCursor k).tau = k.tau := by
  unfold nextSetupCursor
  dsimp only
  split <;> rfl

/-- R154: STEP being positive, ROWA's sum is one of natural numbers. -/
theorem SetupCursor.setupRowa_eq_natCast (h : SetupCursor R k) :
    setupRowa k = (k.rowa.toNat + k.step.toInt.toNat) &&& (k.window.toNat - 1) := by
  have hsum : ((k.rowa.toNat : Int) + k.step.toInt).toNat = k.rowa.toNat + k.step.toInt.toNat := by
    have := h.step_pos
    omega
  rw [setupRowa, hsum]

/-- R154: the window that follows when ROWA returns to 0, on integers. -/
theorem SetupCursor.next_window (h : SetupCursor R k) (hR : R ≤ 65535) (hz : setupRowa k = 0) :
    (nextSetupCursor k).step.toInt = k.window.toNat + k.gap.toInt ∧
      (nextSetupCursor k).window.toNat = 2 * k.window.toNat ∧ (nextSetupCursor k).gap.toInt = -k.gap.toInt := by
  obtain ⟨hstep, hwindow, hgap⟩ := nextSetupCursor_of_eq_zero hz
  have hunit := h.gap_unit
  have hle := h.window_le
  have hlt := h.row_lt
  rw [hstep, hwindow, hgap, toNat_ofNat_of_fits (by omega)]
  exact ⟨toInt_ofInt_of_fits (by omega) (by omega), rfl, toInt_ofInt_of_fits (by omega) (by omega)⟩

/-- Settles O32: every result fits its register. -/
theorem setupCursorUpdate : Obligations.SetupCursorUpdate := by
  intro R c hR h n rowa
  have hrowa : setupRowa c = rowa := h.setupRowa_eq_natCast
  have hlt := h.setupRowa_lt
  have hw := c.window.isLt
  have hrow := h.row_lt
  refine ⟨?_, nextSetupCursor_prev c, ?_, nextSetupCursor_tau c, fun hz => h.next_window hR (hrowa.trans hz),
    fun hne => nextSetupCursor_of_ne_zero (hrowa.trans_ne hne)⟩
  · rw [← hrowa, nextSetupCursor_rowa, toNat_ofNat_of_fits (by omega)]
  · rw [nextSetupCursor_row, toNat_ofNat_of_fits (by omega)]

/-- Settles O33: both parts of the Setup schedule. -/
theorem setupScheduleInvariant : Obligations.SetupScheduleInvariant :=
  fun _ hR => ⟨setupCursor_start, fun _ h => h.next hR⟩

/-! ### Wandering passes -/

/-- R156: the row after row `r` in pass `t` over `R` rows. -/
def passAdvance (R t r : Nat) : Nat := emod ((r : Int) + wStep R t) R

/-- R157: the stride of pass `t` modulo R. -/
def passStride (R t : Nat) : Nat := emod (wStep R t) R

/-- A step of a pass adds its stride modulo R. -/
theorem passAdvance_eq (hR : 0 < R) (t r : Nat) : passAdvance R t r = (r + passStride R t) % R := by
  zify
  rw [passAdvance, passStride, emod_cast _ hR, emod_cast _ hR, Int.add_emod_emod]

/-- R157: the rows of a pass are the multiples of its stride modulo R. -/
theorem passAdvance_iterate (hR : 0 < R) (t j : Nat) : (passAdvance R t)^[j] 0 = j * passStride R t % R := by
  induction j with
  | zero => simp
  | succ j ih => rw [Function.iterate_succ_apply', ih, passAdvance_eq hR, Nat.mod_add_mod, Nat.succ_mul]

theorem passVisits_eq (R t : Nat) : passVisits R t = R / R.gcd (passStride R t) := by
  rw [passVisits, passStride, Nat.gcd_comm]

theorem passVisits_pos (hR : 0 < R) (t : Nat) : 0 < passVisits R t := by
  rw [passVisits_eq]
  exact Nat.div_pos (Nat.gcd_le_left _ hR) (Nat.gcd_pos_of_pos_left _ hR)

theorem passVisits_le (R t : Nat) : passVisits R t ≤ R := Nat.div_le_self _ _

/-- R157: a pass is back at row 0 after its visits. -/
theorem passAdvance_iterate_passVisits (hR : 0 < R) (t : Nat) : (passAdvance R t)^[passVisits R t] 0 = 0 := by
  rw [passAdvance_iterate hR, passVisits_eq]
  refine Nat.mod_eq_zero_of_dvd ?_
  obtain ⟨e, he⟩ := Nat.gcd_dvd_right R (passStride R t)
  have hR' := Nat.div_mul_cancel (Nat.gcd_dvd_left R (passStride R t))
  refine ⟨e, ?_⟩
  calc R / R.gcd (passStride R t) * passStride R t
      = R / R.gcd (passStride R t) * (R.gcd (passStride R t) * e) := by rw [← he]
    _ = R * e := by rw [← mul_assoc, hR']

/-- R157: the rows of a pass are distinct. -/
theorem passAdvance_iterate_inj (hR : 0 < R) {i j : Nat} (hi : i < passVisits R t) (hj : j < passVisits R t)
    (h : (passAdvance R t)^[i] 0 = (passAdvance R t)^[j] 0) : i = j := by
  rw [passAdvance_iterate hR, passAdvance_iterate hR] at h
  have hmod := Nat.ModEq.cancel_right_div_gcd hR h
  rw [← passVisits_eq] at hmod
  exact Nat.ModEq.eq_of_lt_of_lt hmod hi hj

/-- R157: a pass does not come back to row 0 earlier. -/
theorem passAdvance_iterate_ne_zero (hR : 0 < R) {j : Nat} (hpos : 0 < j) (hj : j < passVisits R t) :
    (passAdvance R t)^[j] 0 ≠ 0 := fun h =>
  hpos.ne' (passAdvance_iterate_inj hR hj (hpos.trans hj) h)

/-- R139: on a power of two from 4 up every stride is odd. -/
theorem passStride_odd {k : Nat} (hk : 2 ≤ k) (t : Nat) : Odd (passStride (2 ^ k) t) := by
  obtain ⟨k, rfl⟩ := Nat.exists_eq_add_of_le' hk
  have hpow : 2 ^ (k + 2) = 4 * 2 ^ k := by ring
  have hodd : wStep (4 * 2 ^ k) t % 2 = 1 := by
    have : 0 < 2 ^ k := by positivity
    unfold wStep
    split <;> omega
  have hcast : (passStride (4 * 2 ^ k) t : Int) % 2 = 1 := by
    rw [passStride, emod_cast _ (by positivity), Int.emod_emod_of_dvd _ ⟨2 * 2 ^ k, by push_cast; ring⟩, hodd]
  rw [hpow, Nat.odd_iff]
  omega

/-- Settles O35: the rows of a pass are a subgroup of the residues modulo R. -/
theorem wanderPassLength : Obligations.WanderPassLength := by
  intro R t hR advance n
  have hpos : 0 < R := by omega
  refine ⟨⟨passVisits_pos hpos t, passVisits_le R t⟩, passAdvance_iterate_passVisits hpos t,
    fun k => passAdvance_iterate_ne_zero hpos, fun i j hi hj => passAdvance_iterate_inj hpos hi hj, ?_, ?_⟩
  · rintro ⟨k, hk, rfl⟩
    have hcop := (Nat.coprime_two_left.2 (passStride_odd hk t)).pow_left k
    rw [show n = _ from passVisits_eq _ _, hcop.gcd_eq_one, Nat.div_one]
  · intro hR ht
    have hstride : passStride R t = 0 := by
      rw [passStride, wStep, if_neg (by omega)]
      rcases hR with rfl | rfl <;> rfl
    rw [show n = _ from passVisits_eq _ _, hstride, Nat.gcd_zero_right, Nat.div_self hpos]

end Sys2Proof.Machine
end

section
/-! PROOFS. DERIVE against the phase commands issued one after the other (R180, R181): both run the same bodies, and the
loops of DERIVE end after the number of visits that R157 and R159 give. -/

namespace Sys2Proof.Machine

variable {s t u : State} {i : Instr} {is js : List Instr} {p : Phase} {body : State → State} {m n : Nat}

/-! ### Commands in sequence -/

theorem execAll_cons (h : exec i s = .next t) : execAll (i :: is) s = execAll is t := by
  rw [execAll, h]

theorem execAll_append (h : execAll is s = some t) : execAll (is ++ js) s = execAll js t := by
  induction is generalizing s with
  | nil => cases h; rfl
  | cons i is ih =>
    obtain ⟨u, hu, -⟩ := exec_next i s
    rw [execAll_cons hu] at h
    rw [List.cons_append, execAll_cons hu, ih h]

/-- R71: completing twice is completing once. -/
theorem complete_complete (s : State) : s.complete.complete = s.complete := rfl

/-- R136: command `i` runs `body` in phase `p`, and the body neither reads nor writes what a completion writes. -/
structure PhaseStep (i : Instr) (p : Phase) (body : State → State) : Prop where
  runs : ∀ s, s.err = .none → s.phase = p → exec i s = .next (body s).complete
  complete : ∀ s, body s.complete = (body s).complete

/-- Issued after another command, a phase step gives its body's result. -/
theorem PhaseStep.exec_complete (h : PhaseStep i p body) (herr : s.err = .none) (hp : s.phase = p) :
    exec i s.complete = .next (body s).complete := by
  rw [h.runs s.complete herr hp, h.complete, complete_complete]

/-- The columns of a row do not see a completion when no column does. -/
theorem columns_complete {f : State → Nat → State} (hf : ∀ s c, f s.complete c = (f s c).complete) (s : State) :
    s.complete.columns f = (s.columns f).complete :=
  List.foldl_hom State.complete hf

/-! A completion writes BUSY and the model's own count alone (R71), so it commutes with every piece of a body. -/

theorem moveTo_complete (s : State) (n : Phase × Cursor) : s.complete.moveTo n = (s.moveTo n).complete := rfl

theorem setSponge_complete (s : State) (S : Sponge) : s.complete.setSponge S = (s.setSponge S).complete := rfl

theorem nextDraw_complete (s : State) : s.complete.nextDraw = s.nextDraw.complete := rfl

theorem readCell_complete (s : State) (r c : Nat) : s.complete.readCell r c = s.readCell r c := rfl

theorem writeCell_complete (s : State) (r c : Nat) (b : Block) :
    s.complete.writeCell r c b = (s.writeCell r c b).complete := rfl

theorem xorCell_complete (s : State) (r c : Nat) (b : Block) :
    s.complete.xorCell r c b = (s.xorCell r c b).complete := rfl

theorem duplexRows_complete (s : State) (prev rowa c : Nat) :
    duplexRows s.complete prev rowa c = ((duplexRows s prev rowa c).1.complete, (duplexRows s prev rowa c).2) := by
  simp only [duplexRows, readCell_complete, nextDraw_complete, setSponge_complete, State.complete_cfg,
    State.complete_sponge]

theorem setupColumn_complete (row prev rowa : Nat) (s : State) (c : Nat) :
    setupColumn row prev rowa s.complete c = (setupColumn row prev rowa s c).complete := by
  simp only [setupColumn, duplexRows_complete, writeCell_complete, xorCell_complete, State.complete_params]

theorem wanderColumn_complete (row prev rowa : Nat) (s : State) (c : Nat) :
    wanderColumn row prev rowa s.complete c = (wanderColumn row prev rowa s c).complete := by
  simp only [wanderColumn, duplexRows_complete, xorCell_complete]

theorem squeezeToOut_complete (s : State) (n : Nat) : s.complete.squeezeToOut n = (s.squeezeToOut n).complete := rfl

/-- R151: the blocks M_ABSORB absorbs. -/
theorem inputBlock_complete (s : State) : s.complete.inputBlock s.complete.paddedInput = s.inputBlock s.paddedInput :=
  rfl

theorem inputBlocks_complete (s : State) : s.complete.inputBlocks = s.inputBlocks := rfl

/-! Each phase command is a phase step. -/

theorem phaseStep_mAbsorb : PhaseStep .mAbsorb .absorbing absorbBody where
  runs _ := runCommand_phaseStep
  complete s := by
    have hS : (absorbBody s.complete).sponge = (absorbBody s).sponge := by
      rw [absorbBody_sponge, absorbBody_sponge, inputBlock_complete, inputBlocks_complete]
      rfl
    rw [absorbBody_eq, hS, nextDraw_complete, setSponge_complete]
    exact congrArg State.complete (absorbBody_eq s).symm

theorem phaseStep_mRow0 : PhaseStep .mRow0 .rowInit0 row0Body where
  runs _ := runCommand_phaseStep
  complete s := by
    rw [row0Body_eq, row0Body_eq, columns_complete fun _ _ => rfl]
    rfl

theorem phaseStep_mRow1 : PhaseStep .mRow1 .rowInit1 row1Body where
  runs _ := runCommand_phaseStep
  complete s := by
    rw [row1Body_eq, row1Body_eq, columns_complete fun _ _ => rfl]
    rfl

theorem phaseStep_mSetupRow : PhaseStep .mSetupRow .setup setupRowBody where
  runs _ := runCommand_phaseStep
  complete s := by
    rw [setupRowBody_eq, setupRowBody_eq, ← moveTo_complete, ← columns_complete (setupColumn_complete _ _ _)]
    rfl

theorem phaseStep_mWanderRow : PhaseStep .mWanderRow .wandering wanderRowBody where
  runs _ := runCommand_phaseStep
  complete s := by
    rw [wanderRowBody_eq, wanderRowBody_eq, ← moveTo_complete, ← columns_complete (wanderColumn_complete _ _ _)]
    rfl

theorem phaseStep_mWrapup : PhaseStep .mWrapup .wrapUp wrapupBody where
  runs _ := runCommand_phaseStep
  complete s := by
    simp only [wrapupBody_eq, State.wrappedUp, readCell_complete, nextDraw_complete, setSponge_complete,
      squeezeToOut_complete, moveTo_complete, State.complete_cfg, State.complete_sponge, State.complete_cursor,
      State.complete_params]

/-! ### Row visits in sequence -/

/-- `n` runs of `body`, each in phase `p`, lead from one state to another. -/
inductive Visits (p : Phase) (body : State → State) : Nat → State → State → Prop
  | refl (s : State) : Visits p body 0 s s
  | visit {n : Nat} {s t : State} (hp : s.phase = p) (h : Visits p body n (body s) t) : Visits p body (n + 1) s t

theorem Visits.trans (h : Visits p body m s t) (h' : Visits p body n t u) : Visits p body (m + n) s u := by
  induction h with
  | refl s => rwa [Nat.zero_add]
  | visit hp _ ih =>
    rw [Nat.succ_add]
    exact .visit hp (ih h')

/-- One visit more at the end. -/
theorem Visits.then_visit (h : Visits p body n s t) (hp : t.phase = p) : Visits p body (n + 1) s (body t) :=
  h.trans (.visit hp (.refl _))

/-- R180: a loop that has fuel for the visits ends where they lead out of the phase. -/
theorem Visits.whilePhase_eq (h : Visits p body m s t) (ht : t.phase ≠ p) (hfuel : m ≤ n) :
    whilePhase p body n s = t := by
  induction h generalizing n with
  | refl s => cases n <;> simp [whilePhase, ht]
  | visit hp _ ih =>
    obtain ⟨n, rfl⟩ : ∃ n', n = n' + 1 := ⟨n - 1, by omega⟩
    rw [whilePhase, if_pos hp, ih ht (by omega)]

/-- So do as many commands. -/
theorem Visits.execAll_replicate (h : Visits p body n s t) (hi : PhaseStep i p body)
    (hbody : ∀ s, phaseFrame s (body s)) (herr : s.err = .none) :
    execAll (List.replicate n i) s.complete = some t.complete := by
  induction h with
  | refl s => rfl
  | visit hp _ ih =>
    rw [List.replicate_succ, execAll_cons (hi.exec_complete herr hp), ih ((phaseFrame_err (hbody _)).trans herr)]

/-! ### How many visits: Setup rows (R155, R159) -/

/-- R156, R157: `u`, a state of the derivation begun in `s`, stands in pass `t`, `j` visits of which have been made. -/
structure InPass (s : State) (t j : Nat) (u : State) : Prop where
  derives : DerivesTo s u
  phase : u.phase = .wandering
  tau : u.cursor.tau.toNat = t
  row : u.cursor.row.toNat = (passAdvance s.params.nrows.toNat t)^[j] 0

/-- R144: `u` is what EnterWandering leaves in the derivation begun in `s`: no pass to run, or the first begun. -/
def EnteredWandering (s u : State) : Prop :=
  (s.params.tcost.toNat = 0 ∧ u.phase = .wrapUp) ∨ (1 ≤ s.params.tcost.toNat ∧ InPass s 1 0 u)

theorem EnteredWandering.phase_ne_setup (h : EnteredWandering s u) : u.phase ≠ .setup := by
  rcases h with ⟨-, hp⟩ | ⟨-, hpass⟩
  · rw [hp]
    decide
  · rw [hpass.phase]
    decide

theorem enteredWandering_moveTo {k : Cursor} (h : DerivesTo s (u.moveTo (afterEnterWandering s.params k))) :
    EnteredWandering s (u.moveTo (afterEnterWandering s.params k)) := by
  unfold afterEnterWandering at h ⊢
  split at h
  next hT =>
    rw [if_pos hT]
    exact .inl ⟨by rw [hT]; rfl, rfl⟩
  next hT =>
    rw [if_neg hT]
    exact .inr ⟨Nat.one_le_iff_ne_zero.2 fun h0 => hT (BitVec.eq_of_toNat_eq h0), h, rfl, rfl, rfl⟩

/-- R154, R155: a Setup row of a derivation. -/
theorem DerivesTo.setupRowBody_eq (h : DerivesTo s u) (hp : u.phase = .setup) :
    setupRowBody u =
      (u.columns (setupColumn u.cursor.row.toNat u.cursor.prev.toNat u.cursor.rowa.toNat)).moveTo
        (if u.cursor.row.toNat + 1 = s.params.nrows.toNat then afterEnterWandering s.params (nextSetupCursor u.cursor)
          else (.setup, nextSetupCursor u.cursor)) := by
  have hfit := h.fits
  rw [hp] at hfit
  rw [Machine.setupRowBody_eq, h.params, hp, SetupCursor.afterSetupRow_eq hfit]

/-! ### Row visits of the Wandering phase (R156, R157) -/

/-- R156: the cursor after a row visit. -/
theorem wanderRowBody_cursor (u : State) :
    (wanderRowBody u).cursor =
      nextWanderCursor u.params.nrows.toNat u.params.tcost u.wanderRowa u.cursor := by
  rw [wanderRowBody_eq]
  rfl

/-- R156: PHASE after a row visit. -/
theorem wanderRowBody_phase (u : State) :
    (wanderRowBody u).phase =
      if (wanderRowBody u).cursor.row = 0 ∧ u.cursor.tau = u.params.tcost then .wrapUp else u.phase := by
  rw [wanderRowBody_cursor, wanderRowBody_eq]
  rfl

/-- R157: T passes of at most R visits each. -/
theorem wanderVisits_le (R T : Nat) : wanderVisits R T ≤ T * R := by
  induction T with
  | zero => exact Nat.zero_le _
  | succ T ih =>
    rw [wanderVisits, Nat.succ_mul]
    exact Nat.add_le_add ih (passVisits_le R (T + 1))

section Pass

variable {t j : Nat} (h : InPass s t j u)
include h

/-- R156: a row visit of a derivation finds a Wandering cursor. -/
theorem InPass.wanderCursor : WanderCursor s.params.nrows.toNat s.params.tcost u.cursor := by
  have hfit := h.derives.fits
  rwa [h.phase] at hfit

/-- R156: the row after a visit is the next of the pass. -/
theorem InPass.next_row :
    (wanderRowBody u).cursor.row.toNat = (passAdvance s.params.nrows.toNat t)^[j + 1] 0 := by
  have hcur := h.wanderCursor
  rw [wanderRowBody_cursor, h.derives.params,
    nextWanderCursor_row_toNat (Nat.zero_lt_of_lt hcur.row_lt) s.params.nrows.isLt, hcur.step_eq, h.tau, h.row,
    Function.iterate_succ_apply']
  rfl

/-- R157: which is row 0 when the pass is over. -/
theorem InPass.next_row_eq_zero (hj : j + 1 = passVisits s.params.nrows.toNat t) :
    (wanderRowBody u).cursor.row = 0 := by
  refine BitVec.eq_of_toNat_eq (h.next_row.trans ?_)
  rw [hj]
  exact passAdvance_iterate_passVisits (Nat.zero_lt_of_lt h.wanderCursor.row_lt) t

/-- R156: the last visit of the last pass. -/
theorem InPass.last_pass (hj : j + 1 = passVisits s.params.nrows.toNat t) (ht : t = s.params.tcost.toNat) :
    (wanderRowBody u).phase = .wrapUp := by
  have htau : u.cursor.tau = u.params.tcost := by
    rw [h.derives.params]
    exact BitVec.eq_of_toNat_eq (h.tau.trans ht)
  rw [wanderRowBody_phase, if_pos ⟨h.next_row_eq_zero hj, htau⟩]

end Pass

/-! ### The visits of a valid derivation -/

section Valid

variable (hv : validate s.cfg s.params = none)
include hv

/-- R155, R159: from row ROW on, R - ROW Setup rows. -/
theorem DerivesTo.setup_visits (h : DerivesTo s u) (hp : u.phase = .setup)
    (hn : u.cursor.row.toNat + (n + 1) = s.params.nrows.toNat) :
    ∃ e, Visits .setup setupRowBody (n + 1) u e ∧ DerivesTo s e ∧ EnteredWandering s e := by
  induction n generalizing u with
  | zero =>
    have hnext := h.setupRow hv hp
    have hbody := h.setupRowBody_eq hp
    refine ⟨setupRowBody u, .visit hp (.refl _), hnext, ?_⟩
    rw [if_pos hn] at hbody
    rw [hbody] at hnext ⊢
    exact enteredWandering_moveTo hnext
  | succ n ih =>
    have hbody := h.setupRowBody_eq hp
    rw [if_neg (by omega)] at hbody
    have hp' : (setupRowBody u).phase = .setup := by rw [hbody]; rfl
    have hrow : (setupRowBody u).cursor.row.toNat = u.cursor.row.toNat + 1 := by
      have hlt := s.params.nrows.isLt
      rw [hbody]
      exact (congrArg BitVec.toNat (nextSetupCursor_row _)).trans (toNat_ofNat_of_fits (by omega))
    obtain ⟨e, hvisits, he⟩ := ih (h.setupRow hv hp) hp' (by omega)
    exact ⟨e, .visit hp hvisits, he⟩

/-- R153, R159: after M_ROW1, R - 2 Setup rows, none when R = 2. -/
theorem DerivesTo.row1_setup_visits (h : DerivesTo s u) (hp : u.phase = .rowInit1) :
    ∃ e, Visits .setup setupRowBody (s.params.nrows.toNat - 2) (row1Body u) e ∧ DerivesTo s e ∧
      EnteredWandering s e := by
  have hnext := h.row1 hv hp
  have hcur : u.cursor = startCursor := by
    have hfit := h.fits
    rwa [hp] at hfit
  have hbody := row1Body_eq u
  rw [h.params, hcur, afterRow1] at hbody
  obtain ⟨⟨hR, -⟩, -⟩ := (validate_eq_none_iff _ _).1 hv
  by_cases hR3 : 2 < s.params.nrows.toNat
  · rw [if_pos hR3] at hbody
    have hp' : (row1Body u).phase = .setup := by rw [hbody]; rfl
    have hrow : (row1Body u).cursor.row.toNat = 2 := by rw [hbody]; rfl
    obtain ⟨n, hn⟩ := Nat.exists_eq_add_of_lt hR3
    have hcount : s.params.nrows.toNat - 2 = n + 1 := by omega
    rw [hcount]
    exact hnext.setup_visits hv hp' (by omega)
  · rw [if_neg hR3] at hbody
    have hcount : s.params.nrows.toNat - 2 = 0 := by omega
    rw [hcount]
    refine ⟨row1Body u, .refl _, hnext, ?_⟩
    rw [hbody] at hnext ⊢
    exact enteredWandering_moveTo hnext

/-- R156: a visit inside a pass. -/
theorem InPass.next {t j : Nat} (h : InPass s t j u) (hj : j + 1 < passVisits s.params.nrows.toNat t) :
    InPass s t (j + 1) (wanderRowBody u) := by
  have hrow : (wanderRowBody u).cursor.row ≠ 0 := fun h0 =>
    passAdvance_iterate_ne_zero (Nat.zero_lt_of_lt h.wanderCursor.row_lt) (Nat.succ_pos j) hj
      (h.next_row.symm.trans (congrArg BitVec.toNat h0))
  refine ⟨h.derives.wanderRow hv h.phase, ?_, ?_, h.next_row⟩
  · rw [wanderRowBody_phase, if_neg fun hend => hrow hend.1, h.phase]
  · rw [wanderRowBody_cursor] at hrow ⊢
    rw [(nextWanderCursor_same_pass (.inl hrow)).1, h.tau]

/-- R156: the last visit of a pass but the last. -/
theorem InPass.next_pass {t j : Nat} (h : InPass s t j u) (hj : j + 1 = passVisits s.params.nrows.toNat t)
    (ht : t < s.params.tcost.toNat) : InPass s (t + 1) 0 (wanderRowBody u) := by
  have hrow := h.next_row_eq_zero hj
  have htau : u.cursor.tau ≠ u.params.tcost := fun he => by
    have := h.tau
    rw [he, h.derives.params] at this
    omega
  refine ⟨h.derives.wanderRow hv h.phase, ?_, ?_, congrArg BitVec.toNat hrow⟩
  · rw [wanderRowBody_phase, if_neg fun hend => htau hend.2, h.phase]
  · have hlt := s.params.tcost.isLt
    rw [wanderRowBody_cursor] at hrow ⊢
    rw [(nextWanderCursor_next_pass hrow htau).1, h.tau, toNat_ofNat_of_fits (by omega)]

/-- R157: the visits of a pass before its last. -/
theorem InPass.visits {t j : Nat} (h : InPass s t j u) (n : Nat) (hn : j + n < passVisits s.params.nrows.toNat t) :
    ∃ v, Visits .wandering wanderRowBody n u v ∧ InPass s t (j + n) v := by
  induction n with
  | zero => exact ⟨u, .refl u, h⟩
  | succ n ih =>
    obtain ⟨v, hvisits, hv'⟩ := ih (by omega)
    exact ⟨wanderRowBody v, hvisits.then_visit hv'.phase, hv'.next hv hn⟩

/-- R157: the visits of a pass, the last of them from `v`. -/
theorem InPass.pass_visits {t : Nat} (h : InPass s t 0 u) :
    ∃ v j, j + 1 = passVisits s.params.nrows.toNat t ∧ InPass s t j v ∧
      Visits .wandering wanderRowBody (passVisits s.params.nrows.toNat t) u (wanderRowBody v) := by
  obtain ⟨j, hj⟩ := Nat.exists_eq_add_of_lt (passVisits_pos (Nat.zero_lt_of_lt h.wanderCursor.row_lt) t)
  rw [Nat.zero_add] at hj
  obtain ⟨v, hvisits, hlast⟩ := h.visits hv j (by omega)
  rw [Nat.zero_add] at hlast
  exact ⟨v, j, hj.symm, hlast, hj ▸ hvisits.then_visit hlast.phase⟩

/-- R157, R159: the visits of passes `t + 1` to T, `r` being the passes after the first of them. -/
theorem InPass.passes_visits {t : Nat} (h : InPass s (t + 1) 0 u) (r : Nat) (hr : t + 1 + r = s.params.tcost.toNat) :
    ∃ n e, wanderVisits s.params.nrows.toNat t + n = wanderVisits s.params.nrows.toNat s.params.tcost.toNat ∧
      Visits .wandering wanderRowBody n u e ∧ DerivesTo s e ∧ e.phase = .wrapUp := by
  induction r generalizing t u with
  | zero =>
    obtain ⟨v, j, hj, hlast, hvisits⟩ := h.pass_visits hv
    exact ⟨_, _, congrArg (wanderVisits _) hr, hvisits, hlast.derives.wanderRow hv hlast.phase, hlast.last_pass hj hr⟩
  | succ r ih =>
    obtain ⟨v, j, hj, hlast, hvisits⟩ := h.pass_visits hv
    obtain ⟨n, e, hn, hvisits', he⟩ := ih (hlast.next_pass hv hj (by omega)) (by omega)
    exact ⟨_, e, by rw [← hn, wanderVisits, Nat.add_assoc], hvisits.trans hvisits', he⟩

/-- R157, R159: after EnterWandering the visits of all T passes, none when T = 0. -/
theorem EnteredWandering.visits (hu : DerivesTo s u) (h : EnteredWandering s u) :
    ∃ e, Visits .wandering wanderRowBody (wanderVisits s.params.nrows.toNat s.params.tcost.toNat) u e ∧
      DerivesTo s e ∧ e.phase = .wrapUp := by
  rcases h with ⟨hT, hp⟩ | ⟨hT, hpass⟩
  · rw [hT]
    exact ⟨u, .refl u, hu, hp⟩
  · obtain ⟨r, hr⟩ := Nat.exists_eq_add_of_le hT
    obtain ⟨n, e, hn, he⟩ := InPass.passes_visits (t := 0) hv hpass r (by omega)
    rw [wanderVisits, Nat.zero_add] at hn
    exact ⟨e, hn ▸ he⟩

/-- R180, R181: the phase commands issued one after the other leave what DERIVE leaves. -/
theorem execAll_stepSequence (herr : s.err = .none) :
    execAll (stepSequence s.params.nrows.toNat s.params.tcost.toNat) s = some (deriveRun s).complete := by
  have hstart := derivesTo_start s
  have habsorb := hstart.absorb rfl
  have hrow0 := habsorb.row0 hv rfl
  have hp1 : (row0Body (absorbBody (startBody s))).phase = .rowInit1 := by rw [row0Body_eq]; rfl
  have hrow1 := hrow0.row1 hv hp1
  obtain ⟨e, hsetup, he, hentered⟩ := hrow0.row1_setup_visits hv hp1
  obtain ⟨f, hwander, hf, hwrap⟩ := hentered.visits hv he
  have herr' {u : State} (hu : DerivesTo s u) : u.err = .none := (phaseFrame_err hu.frame).trans herr
  have hrun : deriveRun s = wrapupBody f := by
    rw [deriveRun, setupLoop, hrow1.params, hsetup.whilePhase_eq hentered.phase_ne_setup (Nat.sub_le _ _), wanderLoop,
      he.params, hwander.whilePhase_eq (by rw [hwrap]; decide) (wanderVisits_le _ _)]
  have hfirst : execAll [.mStart, .mAbsorb, .mRow0, .mRow1] s =
      some (row1Body (row0Body (absorbBody (startBody s)))).complete := by
    rw [execAll_cons (exec_mStart_of_valid herr hv), execAll_cons (phaseStep_mAbsorb.exec_complete (herr' hstart) rfl),
      execAll_cons (phaseStep_mRow0.exec_complete (herr' habsorb) rfl),
      execAll_cons (phaseStep_mRow1.exec_complete (herr' hrow0) hp1), execAll]
  rw [stepSequence, List.append_assoc, List.append_assoc, execAll_append hfirst,
    execAll_append (hsetup.execAll_replicate phaseStep_mSetupRow setupRowBody_frame (herr' hrow1)),
    execAll_append (hwander.execAll_replicate phaseStep_mWanderRow wanderRowBody_frame (herr' he)),
    execAll_cons (phaseStep_mWrapup.exec_complete (herr' hf) hwrap), execAll, hrun]

end Valid

/-- Settles O39: DERIVE's loops run the bodies of the commands as often as R157 and R159 count. -/
theorem deriveEqualsSteps : Obligations.DeriveEqualsSteps := by
  intro s herr
  refine ⟨fun hv => ⟨_, exec_derive_of_valid herr hv, ?_, deriveRun_phase s, execAll_stepSequence hv herr⟩,
    fun e hv => ⟨exec_derive_of_invalid herr hv, ?_⟩⟩
  · rw [State.complete_err, phaseFrame_err (deriveRun_frame s), herr]
  · rw [exec_derive_of_invalid herr hv, exec_mStart_of_invalid herr hv]

end Sys2Proof.Machine
end

section
/-! PROOFS. DERIVE_FIXED against the host's six parameter writes and DERIVE (R183): both run the same derivation, which
begins by writing PHASE. -/

namespace Sys2Proof.Machine

variable {s : State}

/-- R63, R69: a write to a parameter register in an unlocked phase. -/
theorem hostWrite_param (hb : s.busy = false) (hp : s.phase.midDerivation = false) (r : ParamReg) (v : Word) :
    s.hostWrite r.offset v = s.setParams (s.params.set r v) := by
  have ht : target s.cfg r.offset = .param r := by cases r <;> rfl
  rw [hostWrite_of_idle hb, ht, State.writeTarget, hp]
  rfl

/-- R69: the next such write adds to what the ones before it left. -/
theorem hostWrite_param_after (hb : s.busy = false) (hp : s.phase.midDerivation = false) (q : Params) (r : ParamReg)
    (v : Word) : (s.setParams q).hostWrite r.offset v = s.setParams (q.set r v) :=
  hostWrite_param (s := s.setParams q) hb hp r v

/-- R150, R180: a derivation does not depend on the phase it is begun in. -/
theorem deriveRun_setPhase (s : State) (p : Phase) : deriveRun (s.setPhase p) = deriveRun s := rfl

/-- Settles O42: the six writes leave the fixed parameters, and M_START's body writes PHASE. -/
theorem deriveFixedEqualsDerive : Obligations.DeriveFixedEqualsDerive := by
  intro s unlocked hlegal herr hb hunlocked s0 s1 s2 s3 s4 s5 s6
  have hwrite := hostWrite_param_after (s := s0) hb (midDerivation_eq_false hunlocked)
  have hwrites : s6 = (s.setParams (fixedParams s.cfg)).setPhase unlocked := calc
    s6 = ((((((s0.setParams s.params).hostWrite ParamReg.klen.offset 32).hostWrite ParamReg.pwdlen.offset 32).hostWrite
        ParamReg.saltlen.offset 32).hostWrite ParamReg.tcost.offset s.cfg.fixedT).hostWrite
        ParamReg.nrows.offset 4).hostWrite ParamReg.ncols.offset (BitVec.ofNat 64 s.cfg.fixedC) := rfl
    _ = s0.setParams (fixedParams s.cfg) := by simp only [hwrite]; rfl
  have hderive := exec_derive_of_valid (s := (s.setParams (fixedParams s.cfg)).setPhase unlocked) herr
    (validate_fixedParams hlegal)
  rw [exec_deriveFixed hlegal herr, hwrites, hderive, deriveRun_setPhase]

end Sys2Proof.Machine
end

section
/-! PROOFS. What DERIVE writes to OUT depends on (R184): two derivations from the same parameters, input, ROT and IV run
in lockstep. They agree in S, PHASE, the cursors and every matrix cell they have filled, and they read no other cell. -/

namespace Sys2Proof.Machine

variable {q : Params} {K K' : Nat → Nat → Prop} {s s' u v : State} {r c : Nat}

/-! ### Agreement on S and the filled cells -/

/-- Two states with the parameters `q` and one ROT agree in S and in the cells M[r][c] of `K`, which hold written
blocks. The rest of the stores, the free values and the capacities may differ. -/
structure Agree (q : Params) (K : Nat → Nat → Prop) (u v : State) : Prop where
  params : u.params = q
  params' : v.params = q
  rot : v.cfg.rot = u.cfg.rot
  sponge : v.sponge = u.sponge
  cells : ∀ r c, c < q.ncols.toNat → K r c → ∃ b, u.cellHolds r c b ∧ v.cellHolds r c b

theorem Agree.mono (h : Agree q K u v) (hK : ∀ r c, c < q.ncols.toNat → K' r c → K r c) : Agree q K' u v where
  params := h.params
  params' := h.params'
  rot := h.rot
  sponge := h.sponge
  cells r c hc hK' := h.cells r c hc (hK r c hc hK')

theorem Agree.nextDraw (h : Agree q K u v) : Agree q K u.nextDraw v.nextDraw :=
  ⟨h.params, h.params', h.rot, h.sponge, h.cells⟩

theorem Agree.setSponge (h : Agree q K u v) (S : Sponge) : Agree q K (u.setSponge S) (v.setSponge S) :=
  ⟨h.params, h.params', h.rot, rfl, h.cells⟩

theorem Agree.moveTo (h : Agree q K u v) (n : Phase × Cursor) : Agree q K (u.moveTo n) (v.moveTo n) :=
  ⟨h.params, h.params', h.rot, h.sponge, h.cells⟩

/-- A cell of `K` reads the same in both, whatever the free values are. -/
theorem Agree.readCell_eq (h : Agree q K u v) (hc : c < q.ncols.toNat) (hK : K r c) :
    v.readCell r c = u.readCell r c := by
  obtain ⟨b, hu, hv⟩ := h.cells r c hc hK
  rw [readCell_of_cellHolds hu, readCell_of_cellHolds hv]

/-- A block written to a cell of both: the cell is one more they agree in. -/
theorem Agree.writeCell (h : Agree q K u v) (hc : c < q.ncols.toNat) (b : Block) :
    Agree q (fun r' c' => K r' c' ∨ r' = r ∧ c' = c) (u.writeCell r c b) (v.writeCell r c b) where
  params := h.params
  params' := h.params'
  rot := h.rot
  sponge := h.sponge
  cells r' c' hc' hK := by
    by_cases hsame : r' = r ∧ c' = c
    · obtain ⟨rfl, rfl⟩ := hsame
      exact ⟨b, writeCell_cellHolds u _ _ b, writeCell_cellHolds v _ _ b⟩
    · obtain ⟨b', hu, hv⟩ := h.cells r' c' hc' (hK.resolve_right hsame)
      have hne : r ≠ r' ∨ c ≠ c' := by omega
      have hcols := congrArg (·.ncols.toNat) h.params
      have hcols' := congrArg (·.ncols.toNat) h.params'
      exact ⟨b', writeCell_keeps_cell (hcols ▸ hc) (hcols ▸ hc') hne hu,
        writeCell_keeps_cell (hcols' ▸ hc) (hcols' ▸ hc') hne hv⟩

/-- R138: a cell of `K` updated in both. -/
theorem Agree.xorCell (h : Agree q K u v) (hc : c < q.ncols.toNat) (hK : K r c) (b : Block) :
    Agree q K (u.xorCell r c b) (v.xorCell r c b) := by
  rw [State.xorCell, State.xorCell, h.readCell_eq hc hK]
  exact ((h.writeCell hc _).nextDraw).mono fun _ _ _ => .inl

/-- R138: a column's duplexing, its two input cells being ones of `K`. -/
theorem Agree.duplexRows {prev rowa : Nat} (h : Agree q K u v) (hc : c < q.ncols.toNat) (hprev : K prev c)
    (hrowa : K rowa c) :
    Agree q K (duplexRows u prev rowa c).1 (duplexRows v prev rowa c).1 ∧
      (duplexRows v prev rowa c).2 = (duplexRows u prev rowa c).2 := by
  simp only [Machine.duplexRows, h.readCell_eq hc hprev, h.nextDraw.readCell_eq hc hrowa, h.rot, h.sponge, and_true]
  exact h.nextDraw.nextDraw.setSponge _

/-! ### The columns of a row -/

/-- What two states agree in before the first column of a row and carry from each column to the next, they agree in
after the row. -/
theorem Agree.columns {K : Nat → Nat → Nat → Prop} {f : State → Nat → State} (h : Agree q (K 0) u v)
    (hf : ∀ n u v, n < q.ncols.toNat → Agree q (K n) u v → Agree q (K (n + 1)) (f u n) (f v n)) :
    Agree q (K q.ncols.toNat) (u.columns f) (v.columns f) := by
  have hcols := columns_induction (P := fun n t => Agree q (K n) t ((List.range n).foldl f v)) (f := f) h
    fun n t hn ht => by
      rw [List.range_succ, List.foldl_append]
      exact hf n _ _ (h.params ▸ hn) ht
  simpa only [State.columns, h.params, h.params'] using hcols

/-- The cells of the rows below `m`. -/
def rowsBelow (m r _c : Nat) : Prop := r < m

/-- The cells of the rows below `m`, and the last `n` of row `m`, which is filled from its last column backward. -/
def fillingRow (C m n r c : Nat) : Prop := r < m ∨ r = m ∧ C ≤ c + n

theorem rowsBelow_of_fillingRow_zero {C m : Nat} (hc : c < C) (h : fillingRow C m 0 r c) : rowsBelow m r c :=
  h.resolve_right fun hlast => Nat.not_le.2 hc hlast.2

/-- Column `n` of the visit adds the `n`-th cell from the end. -/
theorem fillingRow_succ {C m n : Nat} (h : fillingRow C m (n + 1) r c) :
    fillingRow C m n r c ∨ r = m ∧ c = C - 1 - n := by
  unfold fillingRow at h ⊢
  omega

theorem fillingRow_of_rowsBelow_succ {m : Nat} (C : Nat) (h : rowsBelow (m + 1) r c) : fillingRow C m C r c :=
  (Nat.lt_succ_iff_lt_or_eq.1 h).imp_right fun hlast => ⟨hlast, Nat.le_add_left _ _⟩

/-- A row that every column writes one cell of, from its last column backward. -/
theorem Agree.fillRow {m : Nat} {f : State → Nat → State} (h : Agree q (rowsBelow m) u v)
    (hf : ∀ n u v, n < q.ncols.toNat → Agree q (fillingRow q.ncols.toNat m n) u v →
      Agree q (fun r c => fillingRow q.ncols.toNat m n r c ∨ r = m ∧ c = q.ncols.toNat - 1 - n) (f u n) (f v n)) :
    Agree q (rowsBelow (m + 1)) (u.columns f) (v.columns f) := by
  have hfirst : Agree q (fillingRow q.ncols.toNat m 0) u v := h.mono fun _ _ => rowsBelow_of_fillingRow_zero
  have hfilled := hfirst.columns fun n u v hn hn' => (hf n u v hn hn').mono fun _ _ _ => fillingRow_succ
  exact hfilled.mono fun _ _ _ => fillingRow_of_rowsBelow_succ _

/-- R152: a column of M_ROW0. -/
theorem Agree.row0Column (h : Agree q K u v) (hc : c < q.ncols.toNat) :
    Agree q (fun r' c' => K r' c' ∨ r' = 0 ∧ c' = q.ncols.toNat - 1 - c) (row0Column u c) (row0Column v c) := by
  rw [Machine.row0Column, Machine.row0Column, h.params, h.params', h.rot, h.sponge]
  exact (h.writeCell (mirror_lt hc) _).setSponge _

/-- R153: a column of M_ROW1. -/
theorem Agree.row1Column (h : Agree q K u v) (hc : c < q.ncols.toNat) (hK : K 0 c) :
    Agree q (fun r' c' => K r' c' ∨ r' = 1 ∧ c' = q.ncols.toNat - 1 - c) (row1Column u c) (row1Column v c) := by
  simp only [Machine.row1Column, h.params, h.params', h.rot, h.sponge, h.readCell_eq hc hK]
  exact (h.nextDraw.setSponge _).writeCell (mirror_lt hc) _

/-- R154: a column of M_SETUP_ROW. -/
theorem Agree.setupColumn {row prev rowa : Nat} (h : Agree q K u v) (hc : c < q.ncols.toNat) (hprev : K prev c)
    (hrowa : K rowa c) :
    Agree q (fun r' c' => K r' c' ∨ r' = row ∧ c' = q.ncols.toNat - 1 - c) (setupColumn row prev rowa u c)
      (setupColumn row prev rowa v c) := by
  obtain ⟨hd, hout⟩ := h.duplexRows hc hprev hrowa
  simp only [Machine.setupColumn, h.params, h.params', hout]
  exact (hd.writeCell (mirror_lt hc) _).xorCell hc (.inl hrowa) _

/-- R156: a column of M_WANDER_ROW. -/
theorem Agree.wanderColumn {row prev rowa : Nat} (h : Agree q K u v) (hc : c < q.ncols.toNat) (hrow : K row c)
    (hprev : K prev c) (hrowa : K rowa c) :
    Agree q K (wanderColumn row prev rowa u c) (wanderColumn row prev rowa v c) := by
  obtain ⟨hd, hout⟩ := h.duplexRows hc hprev hrowa
  simp only [Machine.wanderColumn, hout]
  exact (hd.xorCell hc hrow _).xorCell hc hrowa _

/-! ### Two derivations in lockstep -/

/-- The number of rows a derivation has filled, by its phase: row ROW is the next one of the Setup phase (R155). -/
def rowsFilled (q : Params) (p : Phase) (k : Cursor) : Nat :=
  match p with
  | .idle | .absorbing | .rowInit0 | .done => 0
  | .rowInit1 => 1
  | .setup => k.row.toNat
  | .wandering | .wrapUp => q.nrows.toNat

/-- R144: EnterWandering comes after the last row. -/
theorem rowsFilled_afterEnterWandering (q : Params) (k : Cursor) :
    rowsFilled q (afterEnterWandering q k).1 (afterEnterWandering q k).2 = q.nrows.toNat := by
  unfold afterEnterWandering
  split <;> rfl

/-- The derivation begun in `s` has come to `u`, and another to `v`: they agree in S, PHASE, the cursors and the rows
filled. -/
structure Lockstep (s u v : State) : Prop where
  derives : DerivesTo s u
  phase : v.phase = u.phase
  cursor : v.cursor = u.cursor
  data : Agree s.params (rowsBelow (rowsFilled s.params u.phase u.cursor)) u v

theorem DerivesTo.fits_of_phase {p : Phase} (h : DerivesTo s u) (hp : u.phase = p) : cursorFits s.params p u.cursor :=
  hp ▸ h.fits

theorem Lockstep.data_of_phase {p : Phase} (h : Lockstep s u v) (hp : u.phase = p) :
    Agree s.params (rowsBelow (rowsFilled s.params p u.cursor)) u v :=
  hp ▸ h.data

/-- After the columns of a row visit, PHASE and the cursors. -/
theorem Lockstep.of_moveTo {m : Nat} {n : Phase × Cursor} (hd : DerivesTo s (u.moveTo n))
    (h : Agree s.params (rowsBelow m) u v) (hm : rowsFilled s.params n.1 n.2 ≤ m) :
    Lockstep s (u.moveTo n) (v.moveTo n) where
  derives := hd
  phase := rfl
  cursor := rfl
  data := (h.moveTo n).mono fun _ _ _ hr => Nat.lt_of_lt_of_le hr hm

/-- R180: a loop of row visits in lockstep. -/
theorem Lockstep.whilePhase {p : Phase} {body : State → State}
    (hb : ∀ u v, Lockstep s u v → u.phase = p → Lockstep s (body u) (body v)) (n : Nat) (h : Lockstep s u v) :
    Lockstep s (whilePhase p body n u) (whilePhase p body n v) := by
  induction n generalizing u v with
  | zero => exact h
  | succ n ih =>
    rw [Machine.whilePhase, Machine.whilePhase, h.phase]
    split
    next hp => exact ih (hb u v h hp)
    · exact h

section Start

variable (hprofile : s'.cfg.profile = s.cfg.profile) (hparams : s'.params = s.params)
include hprofile

/-- R116: the initial state depends on the profile and IV. -/
theorem initState_congr (hiv : s'.cfg.iv = s.cfg.iv) : initState s'.cfg = initState s.cfg := by
  rw [initState, initState, hprofile, hiv]

theorem padBlock_congr : padBlock s'.cfg = padBlock s.cfg := by rw [padBlock, padBlock, hprofile]

include hparams

/-- R151: how the padded input is cut into blocks depends on the profile and the parameters. -/
theorem inputBlock_congr : s'.inputBlock = s.inputBlock := by
  funext buf
  cases hp : s.cfg.profile with
  | doc => rw [inputBlock_doc hp, inputBlock_doc (hprofile.trans hp)]
  | ref => rw [inputBlock_ref hp, inputBlock_ref (hprofile.trans hp), hparams]

theorem inputBlocks_congr : s'.inputBlocks = s.inputBlocks := by
  rw [State.inputBlocks, State.inputBlocks, padBlock_congr hprofile, hparams]

variable {input : List Byte} (hrot : s'.cfg.rot = s.cfg.rot) (hlen : input.length = s.params.inputLength)
  (hin : s.holds inBase input) (hin' : s'.holds inBase input)
include hrot hlen hin hin'

/-- R151: M_ABSORB makes one S of one S, the written input, the parameters, the profile and ROT. -/
theorem absorbBody_sponge_congr (hS : s'.sponge = s.sponge) : (absorbBody s').sponge = (absorbBody s).sponge := by
  rw [absorbBody_sponge, absorbBody_sponge, paddedInput_of_holds hlen hin, paddedInput_of_holds (hparams ▸ hlen) hin',
    inputBlock_congr hprofile hparams, inputBlocks_congr hprofile hparams, padBlock_congr hprofile, hparams, hrot, hS]

/-- R150, R151: so two derivations are in lockstep after M_ABSORB, no cell having been read. -/
theorem lockstep_absorbed (hiv : s'.cfg.iv = s.cfg.iv) :
    Lockstep s (absorbBody (startBody s)) (absorbBody (startBody s')) := by
  have hd := (derivesTo_start s).absorb rfl
  have hS := absorbBody_sponge_congr (s := startBody s) (s' := startBody s') hprofile hparams hrot hlen hin hin'
    (initState_congr hprofile hiv)
  rw [absorbBody_eq] at hd ⊢
  rw [absorbBody_eq (startBody s'), hS]
  generalize (absorbBody (startBody s)).sponge = S at hd ⊢
  exact .of_moveTo (m := 0) hd ⟨rfl, hparams, hrot, rfl, fun _ _ _ => nofun⟩ le_rfl

end Start

section Valid

variable (hv : validate s.cfg s.params = none)
include hv

theorem Lockstep.row0 (h : Lockstep s u v) (hp : u.phase = .rowInit0) : Lockstep s (row0Body u) (row0Body v) := by
  have hd := h.derives.row0 hv hp
  have hdata : Agree s.params (rowsBelow 0) u v := h.data_of_phase hp
  rw [row0Body_eq] at hd ⊢
  rw [row0Body_eq v, h.cursor]
  exact .of_moveTo hd (hdata.fillRow fun _ _ _ hn h => h.row0Column hn) le_rfl

theorem Lockstep.row1 (h : Lockstep s u v) (hp : u.phase = .rowInit1) : Lockstep s (row1Body u) (row1Body v) := by
  obtain ⟨⟨hR, -⟩, -⟩ := (validate_eq_none_iff _ _).1 hv
  have hd := h.derives.row1 hv hp
  have hfit : u.cursor = startCursor := h.derives.fits_of_phase hp
  have hdata : Agree s.params (rowsBelow 1) u v := h.data_of_phase hp
  rw [row1Body_eq, h.data.params] at hd ⊢
  rw [row1Body_eq v, h.cursor, h.data.params']
  refine .of_moveTo hd (hdata.fillRow fun _ _ _ hn h => h.row1Column hn (.inl Nat.one_pos)) ?_
  unfold afterRow1
  split
  · rw [hfit]
    exact le_rfl
  · rw [rowsFilled_afterEnterWandering]
    omega

/-- R154, R155: the rows read stand below row ROW, which is filled. -/
theorem Lockstep.setupRow (h : Lockstep s u v) (hp : u.phase = .setup) :
    Lockstep s (setupRowBody u) (setupRowBody v) := by
  have hd := h.derives.setupRow hv hp
  have hfit : SetupCursor s.params.nrows.toNat u.cursor := h.derives.fits_of_phase hp
  have hdata : Agree s.params (rowsBelow u.cursor.row.toNat) u v := h.data_of_phase hp
  have hprev : u.cursor.prev.toNat < u.cursor.row.toNat := Nat.lt_of_succ_le hfit.prev_row.le
  rw [setupRowBody_eq, h.data.params, hp] at hd ⊢
  rw [setupRowBody_eq v, h.cursor, h.data.params', h.phase, hp]
  refine .of_moveTo hd (hdata.fillRow fun _ _ _ hn h =>
    h.setupColumn hn (.inl hprev) (.inl (hfit.rowa_lt.trans hprev))) ?_
  rw [SetupCursor.afterSetupRow_eq hfit]
  split
  next hlast => rw [rowsFilled_afterEnterWandering, ← hlast]
  · change (nextSetupCursor u.cursor).row.toNat ≤ _
    rw [nextSetupCursor_row, BitVec.toNat_ofNat]
    exact Nat.mod_le _ _

/-- R156: the rows read and updated are rows of the matrix, all of it being filled. -/
theorem Lockstep.wanderRow (h : Lockstep s u v) (hp : u.phase = .wandering) :
    Lockstep s (wanderRowBody u) (wanderRowBody v) := by
  have hd := h.derives.wanderRow hv hp
  have hfit : WanderCursor s.params.nrows.toNat s.params.tcost u.cursor := h.derives.fits_of_phase hp
  have hdata : Agree s.params (rowsBelow s.params.nrows.toNat) u v := h.data_of_phase hp
  have hrowa : u.wanderRowa < s.params.nrows.toNat := by
    rw [State.wanderRowa, h.data.params]
    exact emod_lt _ (Nat.zero_lt_of_lt hfit.row_lt)
  have hrowa' : v.wanderRowa = u.wanderRowa := by
    rw [State.wanderRowa, State.wanderRowa, h.data.sponge, h.data.params, h.data.params']
  rw [wanderRowBody_eq, h.data.params, hp] at hd ⊢
  rw [wanderRowBody_eq v, h.cursor, h.data.params', h.phase, hp, hrowa']
  refine .of_moveTo hd (hdata.columns (K := fun _ => rowsBelow s.params.nrows.toNat) fun _ _ _ hn h =>
    h.wanderColumn hn hfit.row_lt hfit.prev_lt hrowa) ?_
  unfold afterWanderRow
  dsimp only
  split <;> exact le_rfl

/-- R180: the loops in lockstep. -/
theorem Lockstep.loops (h : Lockstep s u v) :
    Lockstep s (wanderLoop (setupLoop u)) (wanderLoop (setupLoop v)) := by
  have hsetup : Lockstep s (setupLoop u) (setupLoop v) := by
    rw [setupLoop, setupLoop, h.data.params, h.data.params']
    exact h.whilePhase (fun _ _ h => h.setupRow hv) _
  rw [wanderLoop, wanderLoop, hsetup.data.params, hsetup.data.params']
  exact hsetup.whilePhase (fun _ _ h => h.wanderRow hv) _

/-- R157, R159: DERIVE's loops, begun after M_ROW1, end in WRAPUP. -/
theorem DerivesTo.loops_phase (h : DerivesTo s u) (hp : u.phase = .rowInit1) :
    (wanderLoop (setupLoop (row1Body u))).phase = .wrapUp := by
  have hrow1 := h.row1 hv hp
  obtain ⟨e, hsetup, he, hentered⟩ := h.row1_setup_visits hv hp
  obtain ⟨f, hwander, -, hwrap⟩ := hentered.visits hv he
  rw [setupLoop, hrow1.params, hsetup.whilePhase_eq hentered.phase_ne_setup (Nat.sub_le _ _), wanderLoop, he.params,
    hwander.whilePhase_eq (by rw [hwrap]; decide) (wanderVisits_le _ _)]
  exact hwrap

end Valid

/-! ### The bytes of OUT -/

/-- R158: the bytes M_WRAPUP writes to OUT. -/
def State.wrapupBytes (s : State) : List Byte :=
  (squeeze s.cfg.rot (duplexFull s.cfg.rot s.sponge (s.readCell s.cursor.rowa.toNat 0)).1 s.params.klen.toNat).2

/-- R34, R158: after M_WRAPUP they stand in OUT[0 .. KLEN-1]. -/
theorem byteAt_wrapupBody (s : State) {j : Nat} (hj : j < s.params.klen.toNat) :
    Memory.byteAt (wrapupBody s).mem (outBase + j) = s.wrapupBytes[j]? ∧
      Memory.byteAt (wrapupBody s).mem (outBase + j) ≠ none := by
  have hlen : j < s.wrapupBytes.length := by rwa [State.wrapupBytes, squeeze_length]
  have hbyte : Memory.byteAt (wrapupBody s).mem (outBase + j) = s.wrapupBytes[j]? := byteAt_store_inside _ _ _ hlen
  refine ⟨hbyte, ?_⟩
  rw [hbyte, List.getElem?_eq_getElem hlen]
  exact Option.some_ne_none _

/-- R158: M_WRAPUP reads a cell of the matrix. -/
theorem Lockstep.wrapupBytes_eq (hv : validate s.cfg s.params = none) (h : Lockstep s u v) (hp : u.phase = .wrapUp) :
    v.wrapupBytes = u.wrapupBytes := by
  obtain ⟨-, ⟨hC, -⟩, -⟩ := (validate_eq_none_iff _ _).1 hv
  have hrowa : u.cursor.rowa.toNat < s.params.nrows.toNat := h.derives.fits_of_phase hp
  have hdata : Agree s.params (rowsBelow s.params.nrows.toNat) u v := h.data_of_phase hp
  rw [State.wrapupBytes, State.wrapupBytes, h.cursor, hdata.params, hdata.params', hdata.rot, hdata.sponge,
    hdata.readCell_eq hC hrowa]

/-- R180: two derivations of one input are in lockstep up to M_WRAPUP, which both of them come to. -/
theorem deriveRun_lockstep {input : List Byte} (hv : validate s.cfg s.params = none)
    (hprofile : s'.cfg.profile = s.cfg.profile) (hrot : s'.cfg.rot = s.cfg.rot) (hiv : s'.cfg.iv = s.cfg.iv)
    (hparams : s'.params = s.params) (hlen : input.length = s.params.inputLength) (hin : s.holds inBase input)
    (hin' : s'.holds inBase input) :
    ∃ u v, deriveRun s = wrapupBody u ∧ deriveRun s' = wrapupBody v ∧ Lockstep s u v ∧ u.phase = .wrapUp := by
  have habsorb := lockstep_absorbed hprofile hparams hrot hlen hin hin' hiv
  have hrow0 := habsorb.row0 hv rfl
  have hp : (row0Body (absorbBody (startBody s))).phase = .rowInit1 := by rw [row0Body_eq]; rfl
  exact ⟨_, _, rfl, rfl, (hrow0.row1 hv hp).loops hv, hrow0.derives.loops_phase hv hp⟩

/-- Settles O43: the lockstep of the two derivations, and the frame of the first. -/
theorem deriveIsDeterministic : Obligations.DeriveIsDeterministic := by
  intro s s' t t' input hlegal _ herr herr' hprofile hrot hiv hparams hv hv' hlen hin hin' ht ht'
  rw [exec_derive_of_valid herr hv] at ht
  rw [exec_derive_of_valid herr' hv'] at ht'
  cases ht
  cases ht'
  refine ⟨fun j hj => ?_, fun x hx =>
    (derivesTo_deriveRun hv).writes.frame x (not_derivationByte (.inr ?_) (.inr hx))⟩
  · obtain ⟨u, v, hu, hu', hlock, hp⟩ :=
      deriveRun_lockstep hv hprofile.symm hrot.symm hiv.symm hparams.symm hlen hin hin'
    obtain ⟨hbyte, hwritten⟩ := byteAt_wrapupBody u (hlock.data.params ▸ hj)
    obtain ⟨hbyte', -⟩ := byteAt_wrapupBody v (hlock.data.params' ▸ hj)
    rw [State.complete_mem, State.complete_mem, hu, hu', hbyte', hlock.wrapupBytes_eq hv hp]
    exact ⟨hbyte, hwritten⟩
  · obtain ⟨-, -, hkey, -⟩ := (validate_eq_none_iff _ _).1 hv
    obtain ⟨-, -, ⟨-, -, hout⟩, -⟩ := hlegal
    unfold outBase
    unfold matBase at hx
    omega

end Sys2Proof.Machine
end

section
/-! PROOFS. Error entry by a command (R213) and the return from it by CLRERR (R196, R215). -/

namespace Sys2Proof.Machine

variable {i : Instr} {s t : State}

/-- R213: a command that ends in an error has recorded the error and completed, no more. -/
theorem eq_complete_raise_of_exec (herr : s.err = .none) (h : exec i s = .next t) (ht : t.err ≠ .none) :
    ∃ code, t = (s.raise code).complete := by
  cases exec_outcome h with
  | suppressed hne => exact absurd herr hne
  | illegalPhase => exact ⟨.phase, rfl⟩
  | checkFailed code => exact ⟨code, rfl⟩
  | effect u _ hu => exact absurd (commandEffect_err herr hu) ht

/-- R196: clearing the error of an error entry gives the state before it, where that had none, with WIGN cleared. -/
theorem clearError_complete_raise (herr : s.err = .none) (code : ErrCode) :
    (s.raise code).complete.clearError = { s with wign := false, busy := false, engineDelay := 0 } := by
  rw [herr]
  rfl

/-- Settles O12: the failing command changed ERR alone before it completed, and CLRERR puts ERR back. -/
theorem clrerrRestoresFailedState : Obligations.ClrerrRestoresFailedState := by
  intro i s t herr h ht
  obtain ⟨code, rfl⟩ := eq_complete_raise_of_exec herr h ht
  calc exec .clrerr (s.raise code).complete
      = .next (s.raise code).complete.clearError.complete := rfl
    _ = .next { s with wign := false, busy := false, engineDelay := 0 } := by
      rw [clearError_complete_raise herr]
      rfl

end Sys2Proof.Machine
end

section
/-! PROOFS. Errors at the engine's step (R207, R213, R214): error entry is precise for commands and illegal words alike,
an error recorded suppresses both, and no host read shows the illegal word. -/

namespace Sys2Proof.Machine

variable {i : Instr} {s t : State}

/-! ### The execution of an illegal word -/

/-- R214: an illegal word while an error is recorded. -/
theorem runIllegal_of_err (herr : s.err ≠ .none) : runIllegal s = .next s.complete := if_pos herr

/-- R207: an illegal word with no error recorded. -/
theorem runIllegal_of_no_err (herr : s.err = .none) : runIllegal s = .next (s.raise .illegal).complete :=
  if_neg (not_not_intro herr)

/-- Where `decodeOption` reads no command, the engine executes an illegal word. -/
theorem engineStep_of_decodeOption_eq_none (h : decodeOption s.lcmd = none) : engineStep s = runIllegal s := by
  cases hd : decode s.lcmd with
  | ok i => simp [decodeOption, hd] at h
  | error e => exact engineStep_of_illegal hd

/-! ### Error entry -/

/-- R213: an engine step that ends in an error has recorded the error and completed, no more. -/
theorem eq_complete_raise_of_engineStep (herr : s.err = .none) (h : engineStep s = .next t) (ht : t.err ≠ .none) :
    ∃ code, t = (s.raise code).complete := by
  cases hd : decode s.lcmd with
  | ok i =>
    rw [engineStep_of_decode hd] at h
    exact eq_complete_raise_of_exec herr h ht
  | error e =>
    rw [engineStep_of_illegal hd, runIllegal_of_no_err herr] at h
    cases h
    exact ⟨.illegal, rfl⟩

/-- Settles O10: the error that the step enters is the one it leaves in ERR. -/
theorem errorEntryIsPrecise : Obligations.ErrorEntryIsPrecise := by
  intro s t herr h ht
  obtain ⟨code, rfl⟩ := eq_complete_raise_of_engineStep herr h ht
  rfl

/-! ### Suppression -/

/-- R214: a command other than CLRERR and SRST while an error is recorded. -/
theorem exec_of_err (herr : s.err ≠ .none) (hi : recovers i = false) : exec i s = .next s.complete := by
  unfold exec
  cases i with
  | clrerr | srst => cases hi
  | nop | init | perm | permR | absorb | duplex | duplexR | squeeze n | mStart | mAbsorb | mRow0 | mRow1 | mSetupRow
  | mWanderRow | mWrapup | derive | deriveFixed => exact runCommand_suppressed herr

/-- Settles O7: a suppressed command and a suppressed illegal word complete, and nothing else. -/
theorem suppressionWhileErrorRecorded : Obligations.SuppressionWhileErrorRecorded :=
  fun _ herr => ⟨fun _ => exec_of_err herr,
    fun hword => (engineStep_of_decodeOption_eq_none hword).trans (runIllegal_of_err herr)⟩

/-! ### The illegal word is hidden -/

/-- R36: no window target shows LCMD, with no command in progress. -/
theorem targetWord_update_lcmd (s : State) (v : Word) (offset : Nat) (tgt : Target) :
    ({ s with lcmd := v } : State).targetWord offset tgt = s.targetWord offset tgt := by
  cases tgt <;> rfl

/-- R36: nor while a command is in progress. -/
theorem targetWordBusy_update_lcmd (s : State) (v : Word) (offset : Nat) (tgt : Target) :
    ({ s with lcmd := v } : State).targetWordBusy offset tgt = s.targetWordBusy offset tgt := by
  cases tgt <;> rfl

/-- R36: no host read depends on LCMD. -/
theorem hostRead_update_lcmd (s : State) (v : Word) (offset : Nat) :
    ({ s with lcmd := v } : State).hostRead offset = s.hostRead offset := by
  unfold State.hostRead
  rw [targetWord_update_lcmd, targetWordBusy_update_lcmd]

/-- Settles O8: the word is executed as illegal, and no host read shows it. -/
theorem illegalWordRaisesIllegal : Obligations.IllegalWordRaisesIllegal :=
  ⟨fun _ herr hword => (engineStep_of_decodeOption_eq_none hword).trans (runIllegal_of_no_err herr), rfl,
    hostRead_update_lcmd⟩

end Sys2Proof.Machine
end

section
/-! PROOFS. The reset input (R235, U5): the host's turn at a reset event is the block's reset, whatever was in progress. -/

namespace Sys2Proof.Machine

variable {s : State} {rest : List HostEvent}

theorem hostEvent_reset (s : State) : hostEvent .reset s = .next s.hardReset := rfl

/-- R235: a reset event has its turn as soon as it is the host's, and its step depends on no command in progress. -/
theorem step_of_host_reset (hhost : s.host = .reset :: rest) (hturn : engineTurn s = false) :
    step s = .next ({ s with host := rest } : State).hardReset := by
  rw [step_of_hostTurn hturn, hostStep_cons hhost, hostEvent_reset]

/-- Settles O55: the state after the reset event is `hardReset`'s, read field by field. -/
theorem hardwareReset : Obligations.HardwareReset :=
  fun _ _ hhost hturn => ⟨_, step_of_host_reset hhost hturn, State.hardReset_cfg _, State.hardReset_params _,
    State.hardReset_cursor _, State.hardReset_busy _, State.hardReset_wign _, State.hardReset_err _,
    State.hardReset_phase _, State.hardReset_host _⟩

end Sys2Proof.Machine
end
